-- ==== Sys2Proof/Word.lean ====
section
/-! DEFINITION. The word types of the spec's notation (spec/00_scope.md rule R6). -/

namespace Sys2Proof

/-- A byte: 8 bits (R6). -/
abbrev Byte := BitVec 8

/-- A word: 32 bits (R6), the width of a register access (R71) and of a command word (R100). -/
abbrev Word := BitVec 32

/-- A 64-bit quantity, reached by the host as a `_LO`/`_HI` pair (R77). -/
abbrev DWord := BitVec 64

/-- A byte string: a finite sequence of bytes indexed from 0 (R6). -/
abbrev Bytes := List Byte

end Sys2Proof
end

