-- ==== Sys2Proof/Syntax.lean ====
section
/-! DEFINITION. Syntax: the 14 commands of HTE-1, the format of a command word, the register names, the
host's transactions and the host script notation. Nothing here has a meaning yet. -/

namespace Sys2Proof

/-- The 14 commands of HTE-1 (spec/30_encoding.md rule R101), one constructor per row of
spec/opcode_table.json. A command word has no operand fields (R100), so no constructor has arguments. -/
inductive Instr where
  | nop | clear
  | keynorm | hmacctr
  | extract | reduce | render | trunc | compare
  | hotpgen | hotpvfy
  | tstep | totpgen | totpvfy
  deriving DecidableEq, Repr

/-- Format `C`, the one command format (R100): `RSV` in bits 31:8 and `OPC` in bits 7:0. -/
structure CommandWord where
  /-- bits 31:8, must be zero in a legal word -/
  rsv : BitVec 24
  /-- bits 7:0, the opcode -/
  opc : BitVec 8
  deriving DecidableEq, Repr

/-- The registers of the window by name (spec/10_state.md rule R47). A 64-bit register is two words and a
buffer is one word register per four bytes (R76, R77). -/
inductive Reg where
  | id | cmd | status | ctrl | lastcmd
  | digits | alg | period
  | ctrLo | ctrHi | timeLo | timeHi | epochLo | epochHi | tctrLo | tctrHi
  | secretLen | digestLen | offset | value | code | strlen
  | codestr (k : Fin 3)
  | candLen
  | cand (k : Fin 4)
  | digest (k : Fin 16)
  | secret (k : Fin 64)
  deriving DecidableEq, Repr

/-- The 64-bit registers, each a `_LO`/`_HI` pair (spec/20_memory.md rule R77). -/
inductive WideReg where
  | ctr | time | epoch | tctr
  deriving DecidableEq, Repr

/-- The widths of an access that rule R75 refuses: 8, 16 and 64 bits, and a burst. -/
inductive OtherWidth where
  | byte | half | double | burst
  deriving DecidableEq, Repr

/-- One host transaction (spec/20_memory.md rules R71, R75). The offset is in bytes from `HTE_BASE`; an
access of another width transfers no data, so it carries none. -/
inductive Transaction where
  /-- `HostRead(off)`, 32 bits -/
  | read (off : Nat)
  /-- `HostWrite(off, v)`, 32 bits -/
  | write (off : Nat) (v : Word)
  /-- a read of a width other than 32 bits -/
  | readOther (width : OtherWidth) (off : Nat)
  /-- a write of a width other than 32 bits -/
  | writeOther (width : OtherWidth) (off : Nat)
  deriving DecidableEq, Repr

/-- What the host does next: a transaction, or the loop `WAIT` of rule R121 (read `STATUS` until its bit 0
reads 0). -/
inductive HostOp where
  | access (t : Transaction)
  | wait
  deriving DecidableEq, Repr

/-- The bus response of a transaction (R71). -/
inductive BusStatus where
  | okay | error
  deriving DecidableEq, Repr

/-- What the host receives when a transaction is complete: a read returns a response and a word, a write a
response (R71). -/
inductive Response where
  | read (status : BusStatus) (data : Word)
  | write (status : BusStatus)
  deriving DecidableEq, Repr

/-- The three agents whose turns make up a run (spec/00_scope.md section 7; spec/10_state.md rule R51). -/
inductive Agent where
  /-- the host performs its next transaction, or stays stalled on a held one -/
  | host
  /-- the engine performs `Complete` when it is enabled -/
  | engine
  /-- the reset input `rst` is asserted -/
  | reset
  deriving DecidableEq, Repr

/-- One line of the host script notation: `WR`, `RD`, `CMD` (R120) and the pseudo-operations of R121. -/
inductive ScriptLine where
  | wr (r : Reg) (v : Word)
  | wrOffset (off : Nat) (v : Word)
  | rd (r : Reg) (v : Word)
  | rdOffset (off : Nat) (v : Word)
  | cmd (i : Instr)
  | wr64 (r : WideReg) (v : DWord)
  | rd64 (r : WideReg) (v : DWord)
  | loadSecret (bs : Bytes)
  | loadDigest (bs : Bytes)
  | loadCand (cs : Bytes)
  | expectStr (cs : Bytes)
  | wait
  | ack
  deriving DecidableEq, Repr

end Sys2Proof
end

