-- ==== Sys2Proof/WellFormed.lean ====
section
/-! DEFINITION. Well-formedness of the syntax, as decidable checks. -/

namespace Sys2Proof

/-- Every command is well formed: it has no operand field that could be out of range (R100). -/
def Instr.wellFormed : Instr → Bool := fun _ => true

/-- The 14 opcodes of rule R101. -/
def assignedOpcodes : List (BitVec 8) :=
  [0x00, 0x01, 0x10, 0x11, 0x20, 0x21, 0x22, 0x23, 0x24, 0x30, 0x31, 0x40, 0x41, 0x42]

/-- `RSV` must be `0x000000` (R100). -/
def CommandWord.reservedZero (c : CommandWord) : Bool := c.rsv == 0

/-- `OPC` is one of the 14 assigned opcodes (R103). -/
def CommandWord.opcodeAssigned (c : CommandWord) : Bool := assignedOpcodes.contains c.opc

/-- A legal command word: both checks of rule R103 hold. -/
def CommandWord.wellFormed (c : CommandWord) : Bool := c.reservedZero && c.opcodeAssigned

/-- The conditions rule R121 puts on a script line: `WR64` names `CTR`, `TIME` or `EPOCH`; `LOADCAND` takes
at most 16 characters; a secret, a digest and a code string fit their buffers (R40, R42, R43). -/
def ScriptLine.wellFormed : ScriptLine → Bool
  | .wr64 r _ => r != .tctr
  | .loadSecret bs => bs.length ≤ 256
  | .loadDigest bs => bs.length ≤ 64
  | .loadCand cs => cs.length ≤ 16
  | .expectStr cs => cs.length ≤ 12
  | .wr _ _ | .wrOffset _ _ | .rd _ _ | .rdOffset _ _ | .cmd _ | .rd64 _ _ | .wait | .ack => true

end Sys2Proof
end

