-- ==== Sys2Proof/Decode.lean ====
section
/-! DEFINITION. Decoding a command word, total on 32-bit words, and encoding a command
(spec/30_encoding.md rules R100 to R103). -/

namespace Sys2Proof

/-- A row of the opcode map of rule R101: a word `w` is the command when `w & mask = match`. -/
structure OpcodeRow where
  instr : Instr
  pattern : Word
  mask : Word
  deriving DecidableEq, Repr

/-- The opcode map, the 14 rows of rule R101 in the table's order. -/
def opcodeTable : List OpcodeRow :=
  [⟨.nop,     0x00000000, 0xFFFFFFFF⟩,
   ⟨.clear,   0x00000001, 0xFFFFFFFF⟩,
   ⟨.keynorm, 0x00000010, 0xFFFFFFFF⟩,
   ⟨.hmacctr, 0x00000011, 0xFFFFFFFF⟩,
   ⟨.extract, 0x00000020, 0xFFFFFFFF⟩,
   ⟨.reduce,  0x00000021, 0xFFFFFFFF⟩,
   ⟨.render,  0x00000022, 0xFFFFFFFF⟩] ++
  [⟨.trunc,   0x00000023, 0xFFFFFFFF⟩,
   ⟨.compare, 0x00000024, 0xFFFFFFFF⟩,
   ⟨.hotpgen, 0x00000030, 0xFFFFFFFF⟩,
   ⟨.hotpvfy, 0x00000031, 0xFFFFFFFF⟩,
   ⟨.tstep,   0x00000040, 0xFFFFFFFF⟩,
   ⟨.totpgen, 0x00000041, 0xFFFFFFFF⟩,
   ⟨.totpvfy, 0x00000042, 0xFFFFFFFF⟩]

/-- What a word decodes to: a command, or `ILLEGAL` (R102). An illegal word is not a stop of the machine:
it completes with the fault `E_ILLCMD` (R261). -/
inductive Decoded where
  | command (i : Instr)
  | illegal
  deriving DecidableEq, Repr

/-- A row selects the word: the whole word is compared under the row's mask (R101). -/
def OpcodeRow.selects (r : OpcodeRow) (w : Word) : Bool := w &&& r.mask == r.pattern

/-- `Decode(w)` of rule R102, total on 32-bit words. -/
def decode (w : Word) : Decoded :=
  match opcodeTable.find? (fun r => r.selects w) with
  | some r => .command r.instr
  | none => .illegal

/-- The fields of a word in format `C` (R100). -/
def CommandWord.ofWord (w : Word) : CommandWord := ⟨w.extractLsb' 8 24, w.extractLsb' 0 8⟩

/-- The word of the fields of format `C` (R100). -/
def CommandWord.toWord (c : CommandWord) : Word := c.rsv ++ c.opc

/-- The `OPC` field of a command (R101). -/
def Instr.opcode : Instr → BitVec 8
  | .nop => 0x00
  | .clear => 0x01
  | .keynorm => 0x10
  | .hmacctr => 0x11
  | .extract => 0x20
  | .reduce => 0x21
  | .render => 0x22
  | .trunc => 0x23
  | .compare => 0x24
  | .hotpgen => 0x30
  | .hotpvfy => 0x31
  | .tstep => 0x40
  | .totpgen => 0x41
  | .totpvfy => 0x42

/-- The command word of a command: `RSV` zero and the command's opcode (R100, R101). -/
def encode (i : Instr) : Word := CommandWord.toWord ⟨0, i.opcode⟩

/-- The command that the decoder reads from a row's bits. A command is one 32-bit word (R100): the bits from
`nbits` up are 0, and bits beyond the 32nd make no command. -/
def decodeTableWord (nbits w : Nat) : Option Instr :=
  let bits := w % 2 ^ nbits
  if bits < 2 ^ 32 then
    match decode (BitVec.ofNat 32 bits) with
    | .command i => some i
    | .illegal => none
  else none

end Sys2Proof
end

