-- ==== Sys2Proof/Machine/Bytes.lean ====
section
/-! DEFINITION. Byte strings: zeros, serializations and the packing of bytes into bus words
(spec/00_scope.md rules R6, R7; spec/20_memory.md rule R76; spec/30_encoding.md rule R110). -/

namespace Sys2Proof.Machine

/-- `zeros(n)`: `n` bytes of `0x00` (R6). -/
def zeros (n : Nat) : Bytes := List.replicate n 0

/-- The `n`-byte big-endian serialization of a natural (R7, `BE_lf` of R131). -/
def beBytes (n v : Nat) : Bytes := (List.range n).map fun i => BitVec.ofNat 8 (v >>> (8 * (n - 1 - i)))

/-- `be_nat(b)`: the natural whose big-endian bytes are `b` (R7). -/
def beNat (bs : Bytes) : Nat := bs.foldl (fun acc b => acc * 256 + b.toNat) 0

/-- `BE64(c)`: the eight counter bytes, byte 0 first (R110). -/
def be64 (c : Nat) : Bytes := beBytes 8 c

/-- Byte `i` of a byte string; every use in the rules has `i < len(b)`. -/
def byteAt (b : Bytes) (i : Nat) : Byte := b.getD i 0

/-- Four bytes packed into a word, the lowest index in the least significant lane (R76). -/
def packWord (b0 b1 b2 b3 : Byte) : Word := b3 ++ b2 ++ b1 ++ b0

/-- Lane `j` of a word, `v[8j+7:8j]` (R76). -/
def lane (v : Word) (j : Nat) : Byte := v.extractLsb' (8 * j) 8

/-- `k` consecutive slices of `n` bytes each, from the front. -/
def chunks : Nat → Nat → Bytes → List Bytes
  | 0, _, _ => []
  | k + 1, n, bs => bs.take n :: chunks k n (bs.drop n)

end Sys2Proof.Machine
end

