-- ==== Sys2Proof/Machine/Hash.lean ====
section
/-! DEFINITION. SHA-1, SHA-256, SHA-512 and HMAC, transcribed from spec/40_hash_functions.md rules R130 to
R135 (which that file marks as general knowledge of the spec's author; PRESUMED, unsafe, notes/assumptions/4.md). -/

namespace Sys2Proof.Machine

/-- The three hash algorithms (R130); `ALG = 3` has none. -/
inductive HashAlg where
  | sha1 | sha256 | sha512
  deriving DecidableEq, Repr

/-- `B(alg)`, the block length in bytes (R130). -/
def HashAlg.blockLen : HashAlg → Nat
  | .sha1 => 64
  | .sha256 => 64
  | .sha512 => 128

/-- `L(alg)`, the digest length in bytes (R130). -/
def HashAlg.digestLen : HashAlg → Nat
  | .sha1 => 20
  | .sha256 => 32
  | .sha512 => 64

/-! ### Padding and block reading (R131) -/

/-- The least `z` with `(n + 1 + z + lf) mod blk = 0` (R131). -/
def padZeros (n blk lf : Nat) : Nat := (blk - (n + 1 + lf) % blk) % blk

/-- `Pad(m, blk, lf)` (R131). -/
def padMessage (m : Bytes) (blk lf : Nat) : Bytes :=
  m ++ [0x80] ++ zeros (padZeros m.length blk lf) ++ beBytes lf (8 * m.length)

/-- The consecutive blocks of a padded message (R131). -/
def blocksOf (blk : Nat) (padded : Bytes) : List Bytes := chunks (padded.length / blk) blk padded

/-- The 16 big-endian words of a block, `n` bytes each (R131). -/
def wordsOf (w n : Nat) (block : Bytes) : List (BitVec w) := (chunks 16 n block).map fun b => BitVec.ofNat w (beNat b)

/-! ### SHA-1 (R132) -/

/-- The five hash or working words of SHA-1. -/
structure Sha1Words where
  a : Word
  b : Word
  c : Word
  d : Word
  e : Word
  deriving DecidableEq, Repr

/-- The initial `H` of SHA-1 (R132). -/
def sha1Init : Sha1Words := ⟨0x67452301, 0xEFCDAB89, 0x98BADCFE, 0x10325476, 0xC3D2E1F0⟩

/-- `n` more words of the message schedule; the list holds `W` newest first, so `W[t-3]` is at index 2 (R132). -/
def sha1Extend : Nat → List Word → List Word
  | 0, ws => ws
  | n + 1, ws =>
    sha1Extend n ((ws.getD 2 0 ^^^ ws.getD 7 0 ^^^ ws.getD 13 0 ^^^ ws.getD 15 0).rotateLeft 1 :: ws)

/-- `W[0..79]` of a block (R132). -/
def sha1Schedule (block : Bytes) : List Word := (sha1Extend 64 (wordsOf 32 4 block).reverse).reverse

/-- The round function `f` of round `t` (R132). -/
def sha1F (t : Nat) (b c d : Word) : Word :=
  if t ≤ 19 then (b &&& c) ||| (~~~b &&& d)
  else if t ≤ 39 then b ^^^ c ^^^ d
  else if t ≤ 59 then (b &&& c) ||| (b &&& d) ||| (c &&& d)
  else b ^^^ c ^^^ d

/-- The round constant `k` of round `t` (R132). -/
def sha1K (t : Nat) : Word :=
  if t ≤ 19 then 0x5A827999 else if t ≤ 39 then 0x6ED9EBA1 else if t ≤ 59 then 0x8F1BBCDC else 0xCA62C1D6

/-- One round (R132). -/
def sha1Round (s : Sha1Words) (tw : Nat × Word) : Sha1Words where
  a := s.a.rotateLeft 5 + sha1F tw.1 s.b s.c s.d + s.e + sha1K tw.1 + tw.2
  b := s.a
  c := s.b.rotateLeft 30
  d := s.c
  e := s.d

/-- One block folded into the hash words (R132). -/
def sha1Block (h : Sha1Words) (block : Bytes) : Sha1Words :=
  let r := ((List.range 80).zip (sha1Schedule block)).foldl sha1Round h
  ⟨h.a + r.a, h.b + r.b, h.c + r.c, h.d + r.d, h.e + r.e⟩

/-- `SHA1(m)` (R132). -/
def sha1 (m : Bytes) : Bytes :=
  let h := (blocksOf 64 (padMessage m 64 8)).foldl sha1Block sha1Init
  [h.a, h.b, h.c, h.d, h.e].flatMap fun x => beBytes 4 x.toNat

/-! ### The shape SHA-256 and SHA-512 share (R133, R134) -/

/-- The eight hash or working words. -/
structure Sha2Words (w : Nat) where
  a : BitVec w
  b : BitVec w
  c : BitVec w
  d : BitVec w
  e : BitVec w
  f : BitVec w
  g : BitVec w
  h : BitVec w
  deriving DecidableEq, Repr

/-- Word `i` of a row of `n` printed constants, the row read as one numeral with its first word in front
(R133, R134). -/
def constantWord (w n row i : Nat) : BitVec w := BitVec.ofNat w (row >>> (w * (n - 1 - i)))

/-- The `n` constants of a printed row, in order (R133, R134). -/
def constantRow (w n row : Nat) : List (BitVec w) := (List.range n).map (constantWord w n row)

/-- Eight words from a printed row (R133, R134). -/
def Sha2Words.ofRow {w : Nat} (row : Nat) : Sha2Words w :=
  let x := constantWord w 8 row
  ⟨x 0, x 1, x 2, x 3, x 4, x 5, x 6, x 7⟩

/-- The four sigma functions: `s0`, `s1` of the schedule and `S0`, `S1` of the rounds. -/
structure Sha2Sigmas (w : Nat) where
  small0 : BitVec w → BitVec w
  small1 : BitVec w → BitVec w
  big0 : BitVec w → BitVec w
  big1 : BitVec w → BitVec w

/-- `n` more words of the message schedule, newest first: `W[t] = s1(W[t-2]) + W[t-7] + s0(W[t-15]) + W[t-16]`
(R133, R134). -/
def sha2Extend {w : Nat} (σ : Sha2Sigmas w) : Nat → List (BitVec w) → List (BitVec w)
  | 0, ws => ws
  | n + 1, ws =>
    sha2Extend σ n ((σ.small1 (ws.getD 1 0) + ws.getD 6 0 + σ.small0 (ws.getD 14 0) + ws.getD 15 0) :: ws)

/-- `ch` (R133, R134). -/
def sha2Ch {w : Nat} (e f g : BitVec w) : BitVec w := (e &&& f) ^^^ (~~~e &&& g)

/-- `maj` (R133, R134). -/
def sha2Maj {w : Nat} (a b c : BitVec w) : BitVec w := (a &&& b) ^^^ (a &&& c) ^^^ (b &&& c)

/-- One round with its constant and schedule word (R133, R134). -/
def sha2Round {w : Nat} (σ : Sha2Sigmas w) (s : Sha2Words w) (kw : BitVec w × BitVec w) : Sha2Words w :=
  let t1 := s.h + σ.big1 s.e + sha2Ch s.e s.f s.g + kw.1 + kw.2
  let t2 := σ.big0 s.a + sha2Maj s.a s.b s.c
  { a := t1 + t2, b := s.a, c := s.b, d := s.c, e := s.d + t1, f := s.e, g := s.f, h := s.g }

/-- One block folded into the hash words: `ks` holds the round constants and `n` is the word's bytes
(R133, R134). -/
def sha2Block {w : Nat} (σ : Sha2Sigmas w) (ks : List (BitVec w)) (n : Nat) (h : Sha2Words w) (block : Bytes) :
    Sha2Words w :=
  let ws := (sha2Extend σ (ks.length - 16) (wordsOf w n block).reverse).reverse
  let r := (ks.zip ws).foldl (sha2Round σ) h
  { a := h.a + r.a, b := h.b + r.b, c := h.c + r.c, d := h.d + r.d, e := h.e + r.e, f := h.f + r.f,
    g := h.g + r.g, h := h.h + r.h }

/-- The hash words serialized big-endian in index order (R131). -/
def Sha2Words.output {w : Nat} (n : Nat) (h : Sha2Words w) : Bytes :=
  [h.a, h.b, h.c, h.d, h.e, h.f, h.g, h.h].flatMap fun x => beBytes n x.toNat

/-! ### SHA-256 (R133) -/

/-- The sigma functions of SHA-256 (R133). -/
def sha256Sigmas : Sha2Sigmas 32 where
  small0 x := x.rotateRight 7 ^^^ x.rotateRight 18 ^^^ (x >>> 3)
  small1 x := x.rotateRight 17 ^^^ x.rotateRight 19 ^^^ (x >>> 10)
  big0 x := x.rotateRight 2 ^^^ x.rotateRight 13 ^^^ x.rotateRight 22
  big1 x := x.rotateRight 6 ^^^ x.rotateRight 11 ^^^ x.rotateRight 25

/-- The initial `H` of SHA-256, as printed (R133). -/
def sha256Init : Sha2Words 32 :=
  Sha2Words.ofRow 0x6a09e667_bb67ae85_3c6ef372_a54ff53a_510e527f_9b05688c_1f83d9ab_5be0cd19

/-- `K[0..63]` of SHA-256, the eight rows as printed (R133). -/
def sha256K : List (BitVec 32) :=
  [0x428a2f98_71374491_b5c0fbcf_e9b5dba5_3956c25b_59f111f1_923f82a4_ab1c5ed5,
   0xd807aa98_12835b01_243185be_550c7dc3_72be5d74_80deb1fe_9bdc06a7_c19bf174,
   0xe49b69c1_efbe4786_0fc19dc6_240ca1cc_2de92c6f_4a7484aa_5cb0a9dc_76f988da,
   0x983e5152_a831c66d_b00327c8_bf597fc7_c6e00bf3_d5a79147_06ca6351_14292967,
   0x27b70a85_2e1b2138_4d2c6dfc_53380d13_650a7354_766a0abb_81c2c92e_92722c85,
   0xa2bfe8a1_a81a664b_c24b8b70_c76c51a3_d192e819_d6990624_f40e3585_106aa070,
   0x19a4c116_1e376c08_2748774c_34b0bcb5_391c0cb3_4ed8aa4a_5b9cca4f_682e6ff3,
   0x748f82ee_78a5636f_84c87814_8cc70208_90befffa_a4506ceb_bef9a3f7_c67178f2].flatMap (constantRow 32 8)

/-- `SHA256(m)` (R133). -/
def sha256 (m : Bytes) : Bytes :=
  ((blocksOf 64 (padMessage m 64 8)).foldl (sha2Block sha256Sigmas sha256K 4) sha256Init).output 4

/-! ### SHA-512 (R134) -/

/-- The sigma functions of SHA-512 (R134). -/
def sha512Sigmas : Sha2Sigmas 64 where
  small0 x := x.rotateRight 1 ^^^ x.rotateRight 8 ^^^ (x >>> 7)
  small1 x := x.rotateRight 19 ^^^ x.rotateRight 61 ^^^ (x >>> 6)
  big0 x := x.rotateRight 28 ^^^ x.rotateRight 34 ^^^ x.rotateRight 39
  big1 x := x.rotateRight 14 ^^^ x.rotateRight 18 ^^^ x.rotateRight 41

/-- The initial `H` of SHA-512, as printed (R134). -/
def sha512Init : Sha2Words 64 :=
  Sha2Words.ofRow
    0x6a09e667f3bcc908_bb67ae8584caa73b_3c6ef372fe94f82b_a54ff53a5f1d36f1_510e527fade682d1_9b05688c2b3e6c1f_1f83d9abfb41bd6b_5be0cd19137e2179

/-- `K[0..79]` of SHA-512, the twenty rows as printed (R134). -/
def sha512K : List (BitVec 64) :=
  [0x428a2f98d728ae22_7137449123ef65cd_b5c0fbcfec4d3b2f_e9b5dba58189dbbc,
   0x3956c25bf348b538_59f111f1b605d019_923f82a4af194f9b_ab1c5ed5da6d8118,
   0xd807aa98a3030242_12835b0145706fbe_243185be4ee4b28c_550c7dc3d5ffb4e2,
   0x72be5d74f27b896f_80deb1fe3b1696b1_9bdc06a725c71235_c19bf174cf692694,
   0xe49b69c19ef14ad2_efbe4786384f25e3_0fc19dc68b8cd5b5_240ca1cc77ac9c65,
   0x2de92c6f592b0275_4a7484aa6ea6e483_5cb0a9dcbd41fbd4_76f988da831153b5,
   0x983e5152ee66dfab_a831c66d2db43210_b00327c898fb213f_bf597fc7beef0ee4,
   0xc6e00bf33da88fc2_d5a79147930aa725_06ca6351e003826f_142929670a0e6e70,
   0x27b70a8546d22ffc_2e1b21385c26c926_4d2c6dfc5ac42aed_53380d139d95b3df,
   0x650a73548baf63de_766a0abb3c77b2a8_81c2c92e47edaee6_92722c851482353b,
   0xa2bfe8a14cf10364_a81a664bbc423001_c24b8b70d0f89791_c76c51a30654be30,
   0xd192e819d6ef5218_d69906245565a910_f40e35855771202a_106aa07032bbd1b8,
   0x19a4c116b8d2d0c8_1e376c085141ab53_2748774cdf8eeb99_34b0bcb5e19b48a8,
   0x391c0cb3c5c95a63_4ed8aa4ae3418acb_5b9cca4f7763e373_682e6ff3d6b2b8a3,
   0x748f82ee5defb2fc_78a5636f43172f60_84c87814a1f0ab72_8cc702081a6439ec,
   0x90befffa23631e28_a4506cebde82bde9_bef9a3f7b2c67915_c67178f2e372532b,
   0xca273eceea26619c_d186b8c721c0c207_eada7dd6cde0eb1e_f57d4f7fee6ed178,
   0x06f067aa72176fba_0a637dc5a2c898a6_113f9804bef90dae_1b710b35131c471b,
   0x28db77f523047d84_32caab7b40c72493_3c9ebe0a15c9bebc_431d67c49c100d4c,
   0x4cc5d4becb3e42b6_597f299cfc657e2a_5fcb6fab3ad6faec_6c44198c4a475817].flatMap (constantRow 64 4)

/-- `SHA512(m)` (R134). -/
def sha512 (m : Bytes) : Bytes :=
  ((blocksOf 128 (padMessage m 128 16)).foldl (sha2Block sha512Sigmas sha512K 8) sha512Init).output 8

/-! ### The configured hash and HMAC -/

/-- `Hash(alg, m)` (R130). -/
def hash : HashAlg → Bytes → Bytes
  | .sha1, m => sha1 m
  | .sha256, m => sha256 m
  | .sha512, m => sha512 m

/-- `K xor pad` for a pad of one repeated byte (R135). -/
def xorPad (pad : Byte) (key : Bytes) : Bytes := key.map (fun b => b ^^^ pad)

/-- `HMAC(alg, K, m)` for a key block `K` of `B(alg)` bytes (R135). -/
def hmac (a : HashAlg) (key m : Bytes) : Bytes :=
  hash a (xorPad 0x5C key ++ hash a (xorPad 0x36 key ++ m))

end Sys2Proof.Machine
end

