-- ==== Sys2Proof/Machine/Otp.lean ====
section
/-! DEFINITION. The pure functions of the pipeline: dynamic truncation, reduction, rendering, secret
normalization, the time step and the one-time password (spec/41_truncation.md rules R160 to R164,
spec/42_key_hmac.md rule R190, spec/44_totp.md rule R230, spec/43_hotp.md rule R209). -/

namespace Sys2Proof.Machine

/-- `DTOffset(d)`: the low four bits of the last byte (R160, R112). -/
def dtOffset (d : Bytes) : Nat := (byteAt d (d.length - 1) &&& 0x0F).toNat

/-- The 31-bit value of the four bytes of `d` from index `o`: the top bit of the first masked, the rest
big-endian (R111). -/
def dtValueAt (d : Bytes) (o : Nat) : Nat :=
  ((byteAt d o &&& 0x7F).toNat <<< 24) ||| ((byteAt d (o + 1)).toNat <<< 16) |||
    ((byteAt d (o + 2)).toNat <<< 8) ||| (byteAt d (o + 3)).toNat

/-- `DTValue(d)` (R160). -/
def dtValue (d : Bytes) : Nat := dtValueAt d (dtOffset d)

/-- The domain of the truncation: the digest is not empty and its four bytes exist (R161). -/
def dtDefined (d : Bytes) : Bool := 1 ≤ d.length && dtOffset d + 4 ≤ d.length

/-- `Reduce(value, digits)`, on unbounded naturals (R163, R162). -/
def reduceCode (value digits : Nat) : Nat := value % 10 ^ digits

/-- `Dec(code, digits)`: the decimal digits in ASCII, most significant first (R113, R164). -/
def dec (code digits : Nat) : Bytes :=
  (List.range digits).map fun i => BitVec.ofNat 8 (0x30 + code / 10 ^ (digits - 1 - i) % 10)

/-- `NormKey(alg, s)`: hashed if longer than the block, then zero-padded on the right (R190). -/
def normKey (a : HashAlg) (s : Bytes) : Bytes :=
  let k := if a.blockLen < s.length then hash a s else s
  k ++ zeros (a.blockLen - k.length)

/-- `tdiv(n, d)`: the quotient truncated toward zero (R7). -/
def truncDiv (n d : Int) : Int := n.sign * d.sign * ((n.natAbs / d.natAbs : Nat) : Int)

/-- `TStep(t, e, p)`: the difference is exact, never wrapped to 64 bits (R230). -/
def timeStep (t e : Int) (p : Nat) : Int := truncDiv (t - e) p

/-- `HOTP(alg, s, c, digits)` (R209). -/
def hotp (a : HashAlg) (s : Bytes) (c digits : Nat) : Bytes :=
  dec (reduceCode (dtValue (hmac a (normKey a s) (be64 c))) digits) digits

end Sys2Proof.Machine
end

