-- ==== Sys2Proof/Machine/Memory.lean ====
section
/-! DEFINITION. The engine's byte storage: a list of (address, byte) cells in one canonical form. The engine
has no memory but its five byte buffers (spec/20_memory.md rule R70), so an address is a byte index into one
buffer (spec/10_state.md rules R40 to R44). -/

namespace Sys2Proof.Machine

/-- The contents of one byte buffer: the cells that differ from the reset contents, by rising index. -/
abbrev Memory := List Host.Cell

/-- What an unlisted index reads as: `0x00`, the reset value of every buffer byte (R47, R300). DEDUCED, safe on
states that runs reach (notes/assumptions/9.md). -/
def Memory.unlisted : Byte := 0

/-- The buffer whose bytes are all `0x00`: its state after reset (R300) and after `CLEAR` (R251). -/
def Memory.zero : Memory := []

/-- Byte `a` of a buffer. -/
def Memory.read (m : Memory) (a : Nat) : Byte :=
  match m with
  | [] => Memory.unlisted
  | c :: rest => if c.1 = a then c.2 else Memory.read rest a

/-- Put a cell before the first cell of a higher index. -/
def Memory.insertCell (c : Host.Cell) : Memory → Memory
  | [] => [c]
  | d :: rest => if c.1 < d.1 then c :: d :: rest else d :: Memory.insertCell c rest

/-- Write byte `v` at index `a`. Writing the value an unlisted index reads as removes the cell. -/
def Memory.write (m : Memory) (a : Nat) (v : Byte) : Memory :=
  let others := m.filter (fun c => c.1 != a)
  if v = Memory.unlisted then others else Memory.insertCell (a, v) others

/-- The cells of a byte string laid down from index `a` upwards. -/
def Memory.ofBytesFrom (a : Nat) : Bytes → Memory
  | [] => []
  | b :: rest =>
    if b = Memory.unlisted then Memory.ofBytesFrom (a + 1) rest else (a, b) :: Memory.ofBytesFrom (a + 1) rest

/-- The buffer whose bytes from index 0 are `bs`: what a command's `BUF[0..n) <- bs` over the whole buffer
leaves. -/
def Memory.ofBytes (bs : Bytes) : Memory := Memory.ofBytesFrom 0 bs

/-- The slice `BUF[0..n)` (R6). -/
def Memory.bytes (m : Memory) (n : Nat) : Bytes := (List.range n).map m.read

/-- `Word(BUF, k)` (R76). -/
def Memory.word (m : Memory) (k : Nat) : Word :=
  packWord (m.read (4 * k)) (m.read (4 * k + 1)) (m.read (4 * k + 2)) (m.read (4 * k + 3))

/-- `SetWord(BUF, k, v)` (R76). -/
def Memory.setWord (m : Memory) (k : Nat) (v : Word) : Memory :=
  (((m.write (4 * k) (lane v 0)).write (4 * k + 1) (lane v 1)).write (4 * k + 2) (lane v 2)).write
    (4 * k + 3) (lane v 3)

/-- The canonical form of a buffer of `size` bytes: indices strictly rising and below `size`, and no cell equal
to what an unlisted index reads as. -/
abbrev Memory.wf (size : Nat) (m : Memory) : Prop :=
  m.Pairwise (fun c d => c.1 < d.1) ∧ ∀ c ∈ m, c.1 < size ∧ c.2 ≠ Memory.unlisted

end Sys2Proof.Machine
end

