-- ==== Sys2Proof/Machine/State.lean ====
section
/-! DEFINITION. The state of the engine and of the two agents around it, as plain data, and its reset value
(spec/10_state.md; reset values R47, R300). -/

namespace Sys2Proof.Machine

/-- The command faults of rule R260. A fault is no stop of the machine: it is the code with which a command
completes (R53, R262). Code 15, `E_ENCODING`, is never produced and is left out, as R266 allows
(DESIGN CHOICE, safe, notes/assumptions/10.md). -/
inductive CommandFault where
  /-- 1 `E_ILLCMD`: the word is not one of the 14 legal words -/
  | illcmd
  /-- 2 `E_ALG`: `ALG = 3` -/
  | alg
  /-- 3 `E_SECLEN`: `SECRET_LEN > 256` -/
  | secLen
  /-- 4 `E_NOKEY`: `KEYVALID = 0` -/
  | noKey
  /-- 5 `E_PERIOD`: `PERIOD = 0` -/
  | period
  /-- 6 `E_CTRRANGE`: the counter is outside `0` to `2^63-1` -/
  | ctrRange
  /-- 7 `E_DIGLEN`: the digest is empty, longer than 64 bytes, or too short for its offset -/
  | digLen
  /-- 8 `E_DIGITS`: `DIGITS` outside 1 to 10 -/
  | digits
  /-- 9 `E_CODERANGE`: `CODE >= 10^DIGITS` -/
  | codeRange
  /-- 10 `E_NOSTR`: no code string has been rendered -/
  | noStr
  deriving DecidableEq, Repr

/-- Why the machine stops with a fault: never. There is no constructor, because the spec gives every
transaction and every command word in every state exactly one outcome (R269, R312): a command fault is
reported in `STATUS.ERR` and a bad access by the bus response `ERROR`, and the machine goes on. DEDUCED
(notes/assumptions/13.md). Safe: no step can be shown to stop where the hardware goes on. -/
inductive Fault where
  deriving DecidableEq, Repr

/-- Why the model gives a step no meaning. -/
inductive Refusal where
  /-- Raised by an arm of `exec` whose instruction has no meaning yet; no arm is left so. Safe: a claim about
  such an instruction could not be proved. -/
  | notModelled (mnemonic : String)
  deriving DecidableEq, Repr

/-- The whole machine. The registers and buffers are those of rule R20, each at its exact width, so a reserved
bit has no storage and reads 0 (R46). `ID` is a constant and `CMD` has no storage (R21, R22). The last three
fields are the model's own: the other agents' pending moves and what the host has received (DESIGN CHOICE, safe as
notes/assumptions/1.md, 2.md and 3.md say). -/
@[ext]
structure State where
  /-- `STATUS.BUSY`, bit 0 (R23) -/
  busy : Bool
  /-- `STATUS.DONE`, bit 1 (R23) -/
  done : Bool
  /-- `STATUS.MATCH`, bit 2 (R23) -/
  matched : Bool
  /-- `STATUS.KEYVALID`, bit 3 (R23, R45) -/
  keyvalid : Bool
  /-- `STATUS.ERR`, bits 11:8 (R23, R260) -/
  err : BitVec 4
  /-- `CTRL.IE`, bit 0 (R24) -/
  ie : Bool
  /-- `LASTCMD` (R25) -/
  lastcmd : Word
  /-- `DIGITS` (R26) -/
  digits : BitVec 8
  /-- `ALG` (R27) -/
  alg : BitVec 2
  /-- `PERIOD`, unsigned seconds (R28) -/
  period : Word
  /-- `EPOCH`, read as `sint64` (R29) -/
  epoch : DWord
  /-- `CTR` (R30) -/
  ctr : DWord
  /-- `TIME`, read as `sint64` (R31) -/
  time : DWord
  /-- `SECRET_LEN` (R32) -/
  secretLen : BitVec 16
  /-- `DIGEST_LEN` (R33) -/
  digestLen : BitVec 8
  /-- `CAND_LEN` (R34) -/
  candLen : BitVec 8
  /-- `TCTR` (R35) -/
  tctr : DWord
  /-- `OFFSET` (R36) -/
  offset : BitVec 4
  /-- `VALUE`, 31 bits (R37) -/
  value : BitVec 31
  /-- `CODE` (R38) -/
  code : Word
  /-- `STRLEN` (R39) -/
  strlen : BitVec 8
  /-- `CODESTR`, 12 bytes (R40) -/
  codestr : Memory
  /-- `CAND`, 16 bytes (R41) -/
  cand : Memory
  /-- `DIGEST`, 64 bytes (R42) -/
  digest : Memory
  /-- `SECRET`, 256 bytes (R43) -/
  secret : Memory
  /-- `KEYBLK`, 128 bytes, hidden (R44) -/
  keyblk : Memory
  /-- MODEL'S OWN: the host's pending operations in the order it issues them (R71); the head is the transaction
  on the bus, held or not (R74) -/
  hostQueue : List HostOp
  /-- MODEL'S OWN: whose turn comes next, and after it; this is how the open interleaving and `LATENCY` are
  data (R51, R82, R310) -/
  schedule : List Agent
  /-- MODEL'S OWN: what the host has received, newest first (R71) -/
  responses : List Response
  deriving DecidableEq, Repr

/-- The state after reset (R47, R300): `DIGITS` 6, `PERIOD` 30, everything else 0; no host operation is
pending and no turn is laid down. -/
def State.reset : State where
  busy := false
  done := false
  matched := false
  keyvalid := false
  err := 0
  ie := false
  lastcmd := 0
  digits := 6
  alg := 0
  period := 30
  epoch := 0
  ctr := 0
  time := 0
  secretLen := 0
  digestLen := 0
  candLen := 0
  tctr := 0
  offset := 0
  value := 0
  code := 0
  strlen := 0
  codestr := Memory.zero
  cand := Memory.zero
  digest := Memory.zero
  secret := Memory.zero
  keyblk := Memory.zero
  hostQueue := []
  schedule := []
  responses := []

end Sys2Proof.Machine
end

