-- ==== Sys2Proof/Machine/Operands.lean ====
section
/-! DEFINITION. The operands of the commands and their checks (spec/30_encoding.md rule R104). A check answers
the operand it guards, or the fault of rule R260; a command makes its checks in ascending order of fault code
and the first that fails is reported (R9, R264). -/

namespace Sys2Proof.Machine

/-- The algorithm an `ALG` field selects; 3 is reserved (R27). -/
def HashAlg.ofField (f : BitVec 2) : Option HashAlg :=
  if f = 0 then some .sha1 else if f = 1 then some .sha256 else if f = 2 then some .sha512 else none

/-- The secret `SECRET[0..SECRET_LEN)` (R32, R115). -/
def State.secretBytes (s : State) : Bytes := s.secret.bytes s.secretLen.toNat

/-- The digest `DIGEST[0..DIGEST_LEN)` (R33, R112). -/
def State.digestBytes (s : State) : Bytes := s.digest.bytes s.digestLen.toNat

/-- The code string `CODESTR[0..STRLEN)` (R39, R40). -/
def State.codeString (s : State) : Bytes := s.codestr.bytes s.strlen.toNat

/-- The time-derived counter before its range check (R230, R231). -/
def State.timeStep (s : State) : Int := Machine.timeStep s.time.toInt s.epoch.toInt s.period.toNat

/-- `require ALG <= 2 else Fault(E_ALG)` (R260). -/
def State.requireAlg (s : State) : Except CommandFault HashAlg :=
  match HashAlg.ofField s.alg with
  | some a => .ok a
  | none => .error .alg

/-- `require SECRET_LEN <= 256 else Fault(E_SECLEN)` (R260). -/
def State.requireSecret (s : State) : Except CommandFault Bytes :=
  if s.secretLen.toNat ≤ 256 then .ok s.secretBytes else .error .secLen

/-- `require STATUS.KEYVALID = 1 else Fault(E_NOKEY)` (R193). -/
def State.requireKey (s : State) (a : HashAlg) : Except CommandFault Bytes :=
  if s.keyvalid then .ok (s.keyblk.bytes a.blockLen) else .error .noKey

/-- `require CTR[63] = 0 else Fault(E_CTRRANGE)` (R194). -/
def State.requireCounter (s : State) : Except CommandFault Nat :=
  if s.ctr.getLsbD 63 then .error .ctrRange else .ok s.ctr.toNat

/-- `require PERIOD != 0 else Fault(E_PERIOD)`, then `require 0 <= q <= 2^63 - 1 else Fault(E_CTRRANGE)`
(R231). -/
def State.requireTimeStep (s : State) : Except CommandFault Nat :=
  if s.period = 0 then .error .period
  else if 0 ≤ s.timeStep ∧ s.timeStep ≤ 2 ^ 63 - 1 then .ok s.timeStep.toNat
  else .error .ctrRange

/-- The two digest checks of `EXTRACT` and `TRUNC`, both `E_DIGLEN` (R161, R165). -/
def State.requireDigest (s : State) : Except CommandFault Bytes :=
  if 1 ≤ s.digestLen.toNat ∧ s.digestLen.toNat ≤ 64 then
    if dtOffset s.digestBytes + 4 ≤ s.digestLen.toNat then .ok s.digestBytes else .error .digLen
  else .error .digLen

/-- `require 1 <= DIGITS <= 10 else Fault(E_DIGITS)` (R162). -/
def State.requireDigits (s : State) : Except CommandFault Nat :=
  if 1 ≤ s.digits.toNat ∧ s.digits.toNat ≤ 10 then .ok s.digits.toNat else .error .digits

/-- `require CODE < 10^DIGITS else Fault(E_CODERANGE)`, the power a natural number (R162, R167). -/
def State.requireCode (s : State) (digits : Nat) : Except CommandFault Nat :=
  if s.code.toNat < 10 ^ digits then .ok s.code.toNat else .error .codeRange

/-- `require STRLEN != 0 else Fault(E_NOSTR)` (R170). -/
def State.requireString (s : State) : Except CommandFault Unit :=
  if s.strlen = 0 then .error .noStr else .ok ()

end Sys2Proof.Machine
end

