-- ==== Sys2Proof/Machine/Flags.lean ====
section
/-! DEFINITION. The flags: the word `STATUS` reads as, the interrupt level, the fault codes, `KEYVALID` and
`MATCH` (spec/10_state.md rules R23, R45, R55; spec/60_exceptions.md rules R260, R270). -/

namespace Sys2Proof.Machine

/-- The code of a fault in `STATUS.ERR` (R260). -/
def CommandFault.errCode : CommandFault → BitVec 4
  | .illcmd => 1
  | .alg => 2
  | .secLen => 3
  | .noKey => 4
  | .period => 5
  | .ctrRange => 6
  | .digLen => 7
  | .digits => 8
  | .codeRange => 9
  | .noStr => 10

/-- A flag as a word. -/
def bitWord (b : Bool) : Word := (BitVec.ofBool b).setWidth 32

/-- The word a read of `STATUS` returns (R72, R23). -/
def State.statusWord (s : State) : Word :=
  bitWord s.busy ||| (bitWord s.done <<< 1) ||| (bitWord s.matched <<< 2) ||| (bitWord s.keyvalid <<< 3) |||
    (s.err.setWidth 32 <<< 8)

/-- The interrupt output, a level: `irq = CTRL.IE & STATUS.DONE` (R270). -/
def State.irq (s : State) : Bool := s.ie && s.done

/-- Clear `KEYVALID`, as a host write to `SECRET`, `SECRET_LEN` or `ALG` does, whatever it writes (R45). -/
def State.clearKeyValid (s : State) : State := { s with keyvalid := false }

/-- The comparison of `verify`: equal lengths and equal bytes below `STRLEN` (R170). -/
def State.candidateMatches (s : State) : Bool :=
  s.candLen == s.strlen && (List.range s.strlen.toNat).all fun i => s.cand.read i == s.codestr.read i

/-- Write the result of the comparison to `MATCH` (R170). -/
def State.setMatch (s : State) : State := { s with matched := s.candidateMatches }

end Sys2Proof.Machine
end

