-- ==== Sys2Proof/Machine/Ops.lean ====
section
/-! DEFINITION. The shared operations of the engine: Accept, Complete, taking a fault and returning from one,
Reset, and the writes of the pipeline's stages (spec/10_state.md rules R52, R53; spec/60_exceptions.md rules
R262, R265; spec/70_reset_and_hazards.md rule R300; spec/43_hotp.md rule R210). -/

namespace Sys2Proof.Machine

/-! ### Accept, Complete, faults, Reset -/

/-- Accept: latch the word and clear `DONE`, `ERR` and `MATCH`; no check of the word (R52). This is also all
the return from a fault there is: `ERR` stays until the next Accept or reset (R265). -/
def State.accept (s : State) (w : Word) : State :=
  { s with lastcmd := w, busy := true, done := false, err := 0, matched := false }

/-- Taking a fault: `ERR` gets the code, `BUSY` falls, `DONE` rises, and nothing else is written. There is no
vector, no mode and no saved register; the faulting word is already in `LASTCMD` (R262, R260). -/
def State.takeFault (s : State) (f : CommandFault) : State :=
  { s with err := f.errCode, busy := false, done := true }

/-- The end of a command that did not fault (R53). -/
def State.succeed (s : State) : State := { s with err := 0, busy := false, done := true }

/-- The Complete step on a command's result: its writes and no error, or the fault alone (R53). -/
def State.complete (s : State) (r : Except CommandFault State) : State :=
  match r with
  | .ok t => t.succeed
  | .error f => s.takeFault f

/-- A command's meaning: its Complete step, which always answers a next state (R53, R269). -/
def State.finish (s : State) (r : Except CommandFault State) : Host.Outcome State Fault Refusal :=
  .next (s.complete r)

/-- Reset: every piece of the engine's state takes its reset value, also while a command runs. The host's
pending transactions, the turns to come and what the host has received are not the engine's (R300, R301; DEDUCED,
unsafe where `rst` also resets the host, notes/assumptions/6.md). -/
def State.resetEngine (s : State) : State :=
  { State.reset with hostQueue := s.hostQueue, schedule := s.schedule, responses := s.responses }

/-! ### Turns -/

/-- The turns still to come (R51). -/
def State.withSchedule (s : State) (turns : List Agent) : State := { s with schedule := turns }

/-- The host has received a response and these operations are left to it (R71). -/
def State.received (s : State) (left : List HostOp) (r : Response) : State :=
  { s with hostQueue := left, responses := r :: s.responses }

/-! ### The writes of the stages -/

/-- `KEYBLK[0..B) <- kb; KEYBLK[B..128) <- zeros; STATUS.KEYVALID <- 1` (R192). -/
def State.setKeyBlock (s : State) (a : HashAlg) (kb : Bytes) : State :=
  { s with keyblk := Memory.ofBytes (kb ++ zeros (128 - a.blockLen)), keyvalid := true }

/-- `DIGEST[0..L) <- dg; DIGEST[L..64) <- zeros; DIGEST_LEN <- L` (R193). -/
def State.setDigest (s : State) (a : HashAlg) (dg : Bytes) : State :=
  { s with digest := Memory.ofBytes (dg ++ zeros (64 - a.digestLen)), digestLen := BitVec.ofNat 8 a.digestLen }

/-- `OFFSET <- DTOffset(d); VALUE <- DTValue(d)` (R165). -/
def State.setExtract (s : State) (d : Bytes) : State :=
  { s with offset := BitVec.ofNat 4 (dtOffset d), value := BitVec.ofNat 31 (dtValue d) }

/-- `CODE <- value mod 10^digits` (R166). -/
def State.setCode (s : State) (value digits : Nat) : State :=
  { s with code := BitVec.ofNat 32 (reduceCode value digits) }

/-- `CODESTR[0..digits) <- Dec(code, digits); CODESTR[digits..12) <- zeros; STRLEN <- digits` (R167). -/
def State.setString (s : State) (code digits : Nat) : State :=
  { s with codestr := Memory.ofBytes (dec code digits ++ zeros (12 - digits)), strlen := BitVec.ofNat 8 digits }

/-- The five writes of the whole truncation, from a digest (R168). -/
def State.setTrunc (s : State) (d : Bytes) (digits : Nat) : State :=
  ((s.setExtract d).setCode (dtValue d) digits).setString (reduceCode (dtValue d) digits) digits

/-- The three stages of the pipeline on a secret and a counter: key block, digest, truncation (R210). -/
def State.otpStages (s : State) (a : HashAlg) (secret : Bytes) (c digits : Nat) : State :=
  let kb := normKey a secret
  let dg := hmac a kb (be64 c)
  ((s.setKeyBlock a kb).setDigest a dg).setTrunc dg digits

/-- `TCTR <- q` (R231). -/
def State.setTctr (s : State) (q : Nat) : State := { s with tctr := BitVec.ofNat 64 q }

/-- The zeroes of `CLEAR`: the secret and everything derived from it (R251). -/
def State.zeroize (s : State) : State :=
  { s with
    secret := Memory.zero, secretLen := 0
    keyblk := Memory.zero, keyvalid := false
    digest := Memory.zero, digestLen := 0
    offset := 0, value := 0, code := 0
    codestr := Memory.zero, strlen := 0
    cand := Memory.zero, candLen := 0
    tctr := 0 }

end Sys2Proof.Machine
end

