-- ==== Sys2Proof/Config.lean ====
section
/-! DEFINITION. What an implementation or a platform fixes and the spec leaves OPEN
(spec/00_scope.md rule R5, spec/92_eei_decisions.md "Open parameters"). -/

namespace Sys2Proof

/-- `HTE_BASE`: the address of offset 0 of the register window in the host's address space. OPEN (R5),
so it has no body: nothing can be proved of its value. The other two OPEN parameters have no constant:
`BUS_PROTOCOL` is pin-level (R4), and `LATENCY` is the order of turns in `State.schedule`. -/
opaque Config.hteBase : Nat

end Sys2Proof
end

