-- ==== Sys2Proof/Machine/RegisterMap.lean ====
section
/-! DEFINITION. The register window: where each register lies, what a read returns and what a write changes
(spec/10_state.md rule R47; spec/20_memory.md rules R70, R72, R73, R80). -/

namespace Sys2Proof.Machine

/-- The window's size in bytes (R5, R70). -/
def windowSize : Nat := 0x200

/-- The constant `ID` reads as (R21). -/
def idWord : Word := 0x474F5401

/-- The window offset of a host address, if it lies in the window; every other address is the platform's
(R70). -/
def windowOffset (addr : Nat) : Option Nat :=
  if Config.hteBase ≤ addr ∧ addr < Config.hteBase + windowSize then some (addr - Config.hteBase) else none

/-- The offset of a register from `HTE_BASE` (R47). -/
def Reg.offsetOf : Reg → Nat
  | .id => 0x000
  | .cmd => 0x004
  | .status => 0x008
  | .ctrl => 0x00C
  | .lastcmd => 0x010
  | .digits => 0x014
  | .alg => 0x018
  | .period => 0x01C
  | .ctrLo => 0x020
  | .ctrHi => 0x024
  | .timeLo => 0x028
  | .timeHi => 0x02C
  | .epochLo => 0x030
  | .epochHi => 0x034
  | .tctrLo => 0x038
  | .tctrHi => 0x03C
  | .secretLen => 0x040
  | .digestLen => 0x044
  | .offset => 0x048
  | .value => 0x04C
  | .code => 0x050
  | .strlen => 0x054
  | .codestr k => 0x058 + 4 * k.val
  | .candLen => 0x064
  | .cand k => 0x068 + 4 * k.val
  | .digest k => 0x080 + 4 * k.val
  | .secret k => 0x100 + 4 * k.val

/-- The registers that are not words of a buffer. -/
def scalarRegs : List Reg :=
  [.id, .cmd, .status, .ctrl, .lastcmd, .digits, .alg, .period, .ctrLo, .ctrHi, .timeLo, .timeHi] ++
  [.epochLo, .epochHi, .tctrLo, .tctrHi, .secretLen, .digestLen, .offset, .value, .code, .strlen, .candLen]

/-- The register at an offset; none where rules R72 and R73 answer `ERROR`: a misaligned offset, one at or
above `0x200`, and the reserved offsets `0x078`, `0x07C` and `0x0C0` to `0x0FC` (R80). -/
def Reg.atOffset (off : Nat) : Option Reg :=
  if off % 4 ≠ 0 then none
  else if h : 0x058 ≤ off ∧ off < 0x064 then some (.codestr ⟨(off - 0x058) / 4, by omega⟩)
  else if h : 0x068 ≤ off ∧ off < 0x078 then some (.cand ⟨(off - 0x068) / 4, by omega⟩)
  else if h : 0x080 ≤ off ∧ off < 0x0C0 then some (.digest ⟨(off - 0x080) / 4, by omega⟩)
  else if h : 0x100 ≤ off ∧ off < 0x200 then some (.secret ⟨(off - 0x100) / 4, by omega⟩)
  else scalarRegs.find? fun r => Reg.offsetOf r == off

/-- The registers the host may reach while `BUSY`: `ID`, `STATUS`, `CTRL`, `LASTCMD` (R72 to R74). -/
def Reg.openWhileBusy : Reg → Bool
  | .id | .status | .ctrl | .lastcmd => true
  | _ => false

/-- The low half of a 64-bit register (R77). -/
def lowWord (v : DWord) : Word := v.extractLsb' 0 32

/-- The high half of a 64-bit register (R77). -/
def highWord (v : DWord) : Word := v.extractLsb' 32 32

/-- Replace the low half and keep the high half (R73, R77). -/
def setLowWord (v : DWord) (w : Word) : DWord := highWord v ++ w

/-- Replace the high half and keep the low half (R73, R77). -/
def setHighWord (v : DWord) (w : Word) : DWord := w ++ lowWord v

/-- The word a read of a register returns, zero-extended; `CMD` and `SECRET` are write-only and read 0
(R72). A read changes no state. -/
def State.readReg (s : State) : Reg → Word
  | .id => idWord
  | .cmd => 0
  | .status => s.statusWord
  | .ctrl => bitWord s.ie
  | .lastcmd => s.lastcmd
  | .digits => s.digits.setWidth 32
  | .alg => s.alg.setWidth 32
  | .period => s.period
  | .ctrLo => lowWord s.ctr
  | .ctrHi => highWord s.ctr
  | .timeLo => lowWord s.time
  | .timeHi => highWord s.time
  | .epochLo => lowWord s.epoch
  | .epochHi => highWord s.epoch
  | .tctrLo => lowWord s.tctr
  | .tctrHi => highWord s.tctr
  | .secretLen => s.secretLen.setWidth 32
  | .digestLen => s.digestLen.setWidth 32
  | .offset => s.offset.setWidth 32
  | .value => s.value.setWidth 32
  | .code => s.code
  | .strlen => s.strlen.setWidth 32
  | .codestr k => s.codestr.word k.val
  | .candLen => s.candLen.setWidth 32
  | .cand k => s.cand.word k.val
  | .digest k => s.digest.word k.val
  | .secret _ => 0

end Sys2Proof.Machine
end

