-- ==== Sys2Proof/Machine/Bus.lean ====
section
/-! DEFINITION. Host transactions: `HostRead`, `HostWrite`, the hold rule and the host's turn
(spec/20_memory.md rules R71 to R75). -/

namespace Sys2Proof.Machine

/-- What a write of `v` to a register changes: the lines of rule R73. A write to `CMD` is the Accept (R52);
writes to read-only registers and to reserved bits are ignored (R46). -/
def State.writeReg (s : State) (r : Reg) (v : Word) : State :=
  match r with
  | .cmd => s.accept v
  | .status => if v.getLsbD 1 then { s with done := false } else s
  | .ctrl => { s with ie := v.getLsbD 0 }
  | .digits => { s with digits := v.setWidth 8 }
  | .alg => { s with alg := v.setWidth 2 }.clearKeyValid
  | .period => { s with period := v }
  | .ctrLo => { s with ctr := setLowWord s.ctr v }
  | .ctrHi => { s with ctr := setHighWord s.ctr v }
  | .timeLo => { s with time := setLowWord s.time v }
  | .timeHi => { s with time := setHighWord s.time v }
  | .epochLo => { s with epoch := setLowWord s.epoch v }
  | .epochHi => { s with epoch := setHighWord s.epoch v }
  | .secretLen => { s with secretLen := v.setWidth 16 }.clearKeyValid
  | .digestLen => { s with digestLen := v.setWidth 8 }
  | .value => { s with value := v.setWidth 31 }
  | .code => { s with code := v }
  | .candLen => { s with candLen := v.setWidth 8 }
  | .cand k => { s with cand := s.cand.setWord k.val v }
  | .digest k => { s with digest := s.digest.setWord k.val v }
  | .secret k => { s with secret := s.secret.setWord k.val v }.clearKeyValid
  | .id | .lastcmd | .tctrLo | .tctrHi | .offset | .strlen | .codestr _ => s

/-- A transaction to this register is held: a command runs and the register is not one of the four that stay
open (R74). -/
def State.holds (s : State) (r : Reg) : Bool := s.busy && !Reg.openWhileBusy r

/-- `HostRead(off)`: the response and the word, or none while it is held. `ERROR` comes before the hold (R72,
R74). -/
def State.hostRead (s : State) (off : Nat) : Option (BusStatus × Word) :=
  match Reg.atOffset off with
  | none => some (.error, 0)
  | some r => if s.holds r then none else some (.okay, s.readReg r)

/-- `HostWrite(off, v)`: the response and the state after it, or none while it is held (R73, R74). -/
def State.hostWrite (s : State) (off : Nat) (v : Word) : Option (BusStatus × State) :=
  match Reg.atOffset off with
  | none => some (.error, s)
  | some r => if s.holds r then none else some (.okay, s.writeReg r v)

/-- One transaction: what the host receives and the state after it, or none while it is held. An access of
another width answers `ERROR`, transfers no data and changes nothing (R71, R75; DEDUCED, safe,
notes/assumptions/8.md). -/
def State.transact (s : State) (t : Transaction) : Option (Response × State) :=
  match t with
  | .read off => (s.hostRead off).map fun p => (.read p.1 p.2, s)
  | .write off v => (s.hostWrite off v).map fun p => (.write p.1, p.2)
  | .readOther _ _ => some (.read .error 0, s)
  | .writeOther _ _ => some (.write .error, s)

/-- The host's turn. It performs the transaction at the head of its queue and receives the response; a held
transaction stays at the head and the host is stalled on it (R74). `WAIT` reads `STATUS` and is over when bit
0 reads 0 (R121); each poll is one turn (DESIGN CHOICE, safe, notes/assumptions/7.md). A host with nothing pending
does nothing. -/
def State.hostTurn (s : State) : State :=
  match s.hostQueue with
  | [] => s
  | .access t :: rest =>
    match s.transact t with
    | none => s
    | some (r, s') => s'.received rest r
  | .wait :: rest => s.received (if s.statusWord.getLsbD 0 then s.hostQueue else rest) (.read .okay s.statusWord)

end Sys2Proof.Machine
end

