-- ==== Sys2Proof/Machine/Hotp.lean ====
section
/-! DEFINITION. `HOTPGEN` and `HOTPVFY` (spec/43_hotp.md). -/

namespace Sys2Proof.Machine

/-- The checks and writes of `HOTPGEN`: all checks in ascending fault code, then the three stages on `CTR`
(R210). -/
def State.hotpGenerate (s : State) : Except CommandFault State := do
  let a ← s.requireAlg
  let secret ← s.requireSecret
  let c ← s.requireCounter
  let n ← s.requireDigits
  return s.otpStages a secret c n

/-- `HOTPGEN`: `HOTP.generateOTP(counter)` (R210). -/
def execHotpgen (s : State) : Host.Outcome State Fault Refusal := s.finish s.hotpGenerate

/-- `HOTPVFY`: `HOTPGEN`, then the comparison with the code string just written (R211). -/
def execHotpvfy (s : State) : Host.Outcome State Fault Refusal :=
  s.finish do
    let t ← s.hotpGenerate
    return t.setMatch

end Sys2Proof.Machine
end

