-- ==== Sys2Proof/Machine/Housekeeping.lean ====
section
/-! DEFINITION. `NOP` and `CLEAR` (spec/45_housekeeping.md). -/

namespace Sys2Proof.Machine

/-- `NOP`: no check and no write; only the common effects of Complete (R250). -/
def execNop (s : State) : Host.Outcome State Fault Refusal := s.finish (.ok s)

/-- `CLEAR`: zeroize the secret and everything derived from it; it never faults (R251). -/
def execClear (s : State) : Host.Outcome State Fault Refusal := s.finish (.ok s.zeroize)

end Sys2Proof.Machine
end

