-- ==== Sys2Proof/Machine/Key.lean ====
section
/-! DEFINITION. `KEYNORM` and `HMACCTR` (spec/42_key_hmac.md). -/

namespace Sys2Proof.Machine

/-- `KEYNORM`: normalize the secret into the key block (R192). -/
def execKeynorm (s : State) : Host.Outcome State Fault Refusal :=
  s.finish do
    let a ← s.requireAlg
    let secret ← s.requireSecret
    return s.setKeyBlock a (normKey a secret)

/-- `HMACCTR`: serialize the counter and compute the HMAC under the key block (R193). -/
def execHmacctr (s : State) : Host.Outcome State Fault Refusal :=
  s.finish do
    let a ← s.requireAlg
    let key ← s.requireKey a
    let c ← s.requireCounter
    return s.setDigest a (hmac a key (be64 c))

end Sys2Proof.Machine
end

