-- ==== Sys2Proof/Machine/Totp.lean ====
section
/-! DEFINITION. `TSTEP`, `TOTPGEN` and `TOTPVFY` (spec/44_totp.md). -/

namespace Sys2Proof.Machine

/-- `TSTEP`: derive the counter from the time (R231). -/
def execTstep (s : State) : Host.Outcome State Fault Refusal :=
  s.finish do
    let q ← s.requireTimeStep
    return s.setTctr q

/-- The checks and writes of `TOTPGEN`: all checks in ascending fault code, then `TCTR` and the three stages on
the derived counter; `CTR` is neither read nor written (R232). -/
def State.totpGenerate (s : State) : Except CommandFault State := do
  let a ← s.requireAlg
  let secret ← s.requireSecret
  let q ← s.requireTimeStep
  let n ← s.requireDigits
  return (s.setTctr q).otpStages a secret q n

/-- `TOTPGEN`: `TOTP.generateOTP(atTime)` (R232). -/
def execTotpgen (s : State) : Host.Outcome State Fault Refusal := s.finish s.totpGenerate

/-- `TOTPVFY`: `TOTPGEN`, then the comparison; one counter only, no window (R233, R236). -/
def execTotpvfy (s : State) : Host.Outcome State Fault Refusal :=
  s.finish do
    let t ← s.totpGenerate
    return t.setMatch

end Sys2Proof.Machine
end

