-- ==== Sys2Proof/Machine/Truncation.lean ====
section
/-! DEFINITION. `EXTRACT`, `REDUCE`, `RENDER`, `TRUNC` and `COMPARE` (spec/41_truncation.md). -/

namespace Sys2Proof.Machine

/-- `EXTRACT`: dynamic bit extraction, steps 1 to 3 (R165). -/
def execExtract (s : State) : Host.Outcome State Fault Refusal :=
  s.finish do
    let d ← s.requireDigest
    return s.setExtract d

/-- `REDUCE`: modular reduction, step 4 (R166). -/
def execReduce (s : State) : Host.Outcome State Fault Refusal :=
  s.finish do
    let n ← s.requireDigits
    return s.setCode s.value.toNat n

/-- `RENDER`: fixed-width decimal encoding, step 5 (R167). -/
def execRender (s : State) : Host.Outcome State Fault Refusal :=
  s.finish do
    let n ← s.requireDigits
    let code ← s.requireCode n
    return s.setString code n

/-- `TRUNC`: the whole truncation; both checks come before any write (R168). -/
def execTrunc (s : State) : Host.Outcome State Fault Refusal :=
  s.finish do
    let d ← s.requireDigest
    let n ← s.requireDigits
    return s.setTrunc d n

/-- `COMPARE`: the string comparison of `verify`; a mismatch is no fault (R170, R268). -/
def execCompare (s : State) : Host.Outcome State Fault Refusal :=
  s.finish do
    s.requireString
    return s.setMatch

end Sys2Proof.Machine
end

