-- ==== Sys2Proof/Machine/Dispatch.lean ====
section
/-! DEFINITION. `Exec` of rule R53: the Complete step of a command, one arm per constructor. -/

namespace Sys2Proof.Machine

def exec (i : Instr) (s : State) : Host.Outcome State Fault Refusal :=
  match i with
  | .nop => Sys2Proof.Machine.execNop s
  | .clear => Sys2Proof.Machine.execClear s
  | .keynorm => Sys2Proof.Machine.execKeynorm s
  | .hmacctr => Sys2Proof.Machine.execHmacctr s
  | .extract => Sys2Proof.Machine.execExtract s
  | .reduce => Sys2Proof.Machine.execReduce s
  | .render => Sys2Proof.Machine.execRender s
  | .trunc => Sys2Proof.Machine.execTrunc s
  | .compare => Sys2Proof.Machine.execCompare s
  | .hotpgen => Sys2Proof.Machine.execHotpgen s
  | .hotpvfy => Sys2Proof.Machine.execHotpvfy s
  | .tstep => Sys2Proof.Machine.execTstep s
  | .totpgen => Sys2Proof.Machine.execTotpgen s
  | .totpvfy => Sys2Proof.Machine.execTotpvfy s

end Sys2Proof.Machine
end

