-- ==== Sys2Proof/Machine/Engine.lean ====
section
/-! DEFINITION. The engine's turn and the order of turns (spec/10_state.md rules R50 to R53). -/

namespace Sys2Proof.Machine

/-- The engine's turn: when `BUSY = 1` it performs `Complete` on the word in `LASTCMD`, and an illegal word
completes with `E_ILLCMD` (R53, R102, R261). When idle it does nothing (R278). -/
def State.engineTurn (s : State) : Host.Outcome State Fault Refusal :=
  if s.busy then
    match decode s.lastcmd with
    | .command i => exec i s
    | .illegal => .next (s.takeFault .illcmd)
  else .next s

/-- One step: the turn of the next agent of the schedule. When no turn is laid down, a running command
completes (the fairness of R53), else the host goes on (R51, R82): DESIGN CHOICE, unsafe only where a claim is of an
empty schedule (notes/assumptions/2.md). -/
def State.nextTurn (s : State) : Host.Outcome State Fault Refusal :=
  match s.schedule with
  | .host :: rest => .next (s.withSchedule rest).hostTurn
  | .engine :: rest => (s.withSchedule rest).engineTurn
  | .reset :: rest => .next (s.withSchedule rest).resetEngine
  | [] => if s.busy then s.engineTurn else .next s.hostTurn

/-- The state in which the very next step runs the command word `w`: the host's `CMD` write has been accepted
(R52), and the next turn is the engine's. -/
def State.present (s : State) (w : Word) : State :=
  (s.accept w).withSchedule (.engine :: s.schedule)

end Sys2Proof.Machine
end

