-- ==== Sys2Proof/Machine/Step.lean ====
section
/-! DEFINITION. The step function and the placing of a command word where the step fetches it. -/

namespace Sys2Proof.Machine

/-- One atomic step of the machine (spec/10_state.md rule R51). -/
def step (s : State) : Host.Outcome State Fault Refusal := s.nextTurn

/-- The state whose next step runs the instruction with bits `w`: the word is where the engine takes its next
command from, `LASTCMD` with `BUSY = 1` (R50, R85), as an Accept leaves it (DESIGN CHOICE, safe,
notes/assumptions/5.md). -/
def State.withFetchWord (s : State) (nbits w : Nat) : State := s.present (BitVec.ofNat 32 (w % 2 ^ nbits))

end Sys2Proof.Machine
end

