-- ==== Sys2Proof/Machine/Script.lean ====
section
/-! DEFINITION. The host script notation: what each line issues and what it expects (spec/30_encoding.md rules
R120, R121). It is notation for the host's transactions, not a language the engine executes. -/

namespace Sys2Proof.Machine

/-- `HostWrite` to a register by name. -/
def writeOp (r : Reg) (v : Word) : HostOp := .access (.write (Reg.offsetOf r) v)

/-- `HostRead` of a register by name. -/
def readOp (r : Reg) : HostOp := .access (.read (Reg.offsetOf r))

/-- The `_LO` register of a 64-bit register (R77). -/
def WideReg.lo : WideReg → Reg
  | .ctr => .ctrLo
  | .time => .timeLo
  | .epoch => .epochLo
  | .tctr => .tctrLo

/-- The `_HI` register of a 64-bit register (R77). -/
def WideReg.hi : WideReg → Reg
  | .ctr => .ctrHi
  | .time => .timeHi
  | .epoch => .epochHi
  | .tctr => .tctrHi

/-- `Word(bs ++ zeros, k)` (R121, R76). -/
def wordOfBytes (bs : Bytes) (k : Nat) : Word :=
  packWord (byteAt bs (4 * k)) (byteAt bs (4 * k + 1)) (byteAt bs (4 * k + 2)) (byteAt bs (4 * k + 3))

/-- The word writes that load a byte string into a buffer whose first word is at `base`: `ceil(n/4)` of them
(R121). -/
def loadOps (base : Nat) (bs : Bytes) : List HostOp :=
  (List.range ((bs.length + 3) / 4)).map fun k => .access (.write (base + 4 * k) (wordOfBytes bs k))

/-- The host operations a line issues, in order (R120, R121). -/
def ScriptLine.ops : ScriptLine → List HostOp
  | .wr r v => [writeOp r v]
  | .wrOffset off v => [.access (.write off v)]
  | .rd r _ => [readOp r]
  | .rdOffset off _ => [.access (.read off)]
  | .cmd i => [writeOp .cmd (encode i)]
  | .wr64 r v => [writeOp (WideReg.lo r) (lowWord v), writeOp (WideReg.hi r) (highWord v)]
  | .rd64 r _ => [readOp (WideReg.lo r), readOp (WideReg.hi r)]
  | .loadSecret bs => loadOps (Reg.offsetOf (.secret 0)) bs ++ [writeOp .secretLen (BitVec.ofNat 32 bs.length)]
  | .loadDigest bs => loadOps (Reg.offsetOf (.digest 0)) bs ++ [writeOp .digestLen (BitVec.ofNat 32 bs.length)]
  | .loadCand cs => loadOps (Reg.offsetOf (.cand 0)) cs ++ [writeOp .candLen (BitVec.ofNat 32 cs.length)]
  | .expectStr _ => [readOp .strlen, readOp (.codestr 0), readOp (.codestr 1), readOp (.codestr 2)]
  | .wait => [.wait]
  | .ack => [writeOp .status 0x00000002]

/-- The responses a line requires, in order: `OKAY` for every write, `OKAY` and the stated value for every
read. The polls of `WAIT` have no stated value and carry no requirement (R120, R121). -/
def ScriptLine.expected : ScriptLine → List Response
  | .rd _ v | .rdOffset _ v => [.read .okay v]
  | .rd64 _ v => [.read .okay (lowWord v), .read .okay (highWord v)]
  | .expectStr cs =>
    .read .okay (BitVec.ofNat 32 cs.length) :: [0, 1, 2].map fun k => .read .okay (wordOfBytes cs k)
  | .wait => []
  | l => (ScriptLine.ops l).map fun _ => .write .okay

/-- The host operations of a script, line by line. -/
def scriptOps (ls : List ScriptLine) : List HostOp := ls.flatMap ScriptLine.ops

end Sys2Proof.Machine
end

