-- ==== Sys2Proof/Safety.lean ====
section
/-! DEFINITION. What claims speak of: the end of a run, the invariants of reachable states, which states differ
only in the secret or only in the turns to come, what a host transaction answers, and the fault table. -/

namespace Sys2Proof.Machine

/-- The end of a run: the host has performed its last operation and `BUSY = 0` (spec/10_state.md rule R54). -/
def State.finished (s : State) : Bool := s.hostQueue.isEmpty && !s.busy

/-- Every byte buffer is in canonical form and within its size (R40 to R44). -/
abbrev State.BuffersCanonical (s : State) : Prop :=
  s.codestr.wf 12 ∧ s.cand.wf 16 ∧ s.digest.wf 64 ∧ s.secret.wf 256 ∧ s.keyblk.wf 128

/-- The `STATUS` bits agree with one another: a running command has no outcome yet (R52), a match is never
shown with a fault (R170, R211), and codes 11 to 15 never occur (R260). -/
abbrev State.StatusCoherent (s : State) : Prop :=
  (s.busy = true → s.done = false ∧ s.err = 0 ∧ s.matched = false) ∧
    (s.matched = true → s.err = 0) ∧ s.err.toNat ≤ 10

/-- `STRLEN` is 0 to 10, the bytes below it are ASCII digits and the bytes from it on are zero (R39, R40). -/
def State.CodeStringOk (s : State) : Prop :=
  s.strlen.toNat ≤ 10 ∧
    (∀ i, i < s.strlen.toNat → 0x30 ≤ (s.codestr.read i).toNat ∧ (s.codestr.read i).toNat ≤ 0x39) ∧
    ∀ i, s.strlen.toNat ≤ i → s.codestr.read i = 0

/-- `KEYVALID` tells the truth: when it is set, `KEYBLK` holds the normalized key of the current `ALG`, `SECRET`
and `SECRET_LEN`, followed by zeros (R23, R44). -/
def State.KeyBlockTrue (s : State) : Prop :=
  s.keyvalid = true →
    ∃ a, HashAlg.ofField s.alg = some a ∧ s.secretLen.toNat ≤ 256 ∧
      s.keyblk.bytes 128 = normKey a s.secretBytes ++ zeros (128 - a.blockLen)

/-- The time-derived counter is in `0` to `2^63-1` (R35). -/
def State.TctrInRange (s : State) : Prop := s.tctr.toNat ≤ 2 ^ 63 - 1

/-- What holds of every state that a run from reset reaches. -/
structure State.Inv (s : State) : Prop where
  buffers : s.BuffersCanonical
  status : s.StatusCoherent
  codeString : s.CodeStringOk
  keyBlock : s.KeyBlockTrue
  tctr : s.TctrInRange

/-- A state after a command fault with this code: `ERR`, `BUSY` and `DONE` as rule R262 lists them, and nothing
else changed. -/
def State.faultedWith (s : State) (code : BitVec 4) : State := { s with err := code, busy := false, done := true }

/-- Two states that differ at most in what the host cannot read: `SECRET` and `KEYBLK` (R81). -/
def State.sameButSecret (s t : State) : Prop := t = { s with secret := t.secret, keyblk := t.keyblk }

/-- Two states that differ at most in the turns laid down. -/
def State.sameButSchedule (s t : State) : Prop := t = { s with schedule := t.schedule }

/-- A host operation that neither reads nor writes `STATUS`. -/
def HostOp.avoidsStatus : HostOp → Bool
  | .access (.read off) => off != 0x008
  | .access (.write off _) => off != 0x008
  | .access (.readOther _ _) => true
  | .access (.writeOther _ _) => true
  | .wait => false

/-- A host read of this offset is performed at once: it answers `OKAY` and the word with this value, and the state
stays as it is (R72). -/
def State.answersRead (s : State) (off value : Nat) : Prop :=
  s.transact (.read off) = some (.read .okay (BitVec.ofNat 32 value), s)

/-- A host write of this word to this offset is performed at once: it answers `OKAY` and leaves this state (R73). -/
def State.answersWrite (s : State) (off : Nat) (v : Word) (after : State) : Prop :=
  s.transact (.write off v) = some (.write .okay, after)

/-- The value of `Word(BUF, k)`: four bytes, the lowest index in the least significant lane (R76). -/
def Memory.lanesValue (m : Memory) (k : Nat) : Nat :=
  (m.read (4 * k)).toNat + (m.read (4 * k + 1)).toNat * 2 ^ 8 + (m.read (4 * k + 2)).toNat * 2 ^ 16 +
    (m.read (4 * k + 3)).toNat * 2 ^ 24

/-- The four bytes of word `k` are the lanes of `v`, and every other byte is that of `old` (R76). -/
def Memory.hasLanes (m old : Memory) (k : Nat) (v : Word) : Prop :=
  ∀ a, (m.read a).toNat =
    if 4 * k ≤ a ∧ a < 4 * k + 4 then v.toNat / 2 ^ (8 * (a - 4 * k)) % 256 else (old.read a).toNat

/-- The registers whose host write clears `KEYVALID`: `ALG`, `SECRET_LEN` and every `SECRET` word (R45). -/
def Reg.feedsKey : Reg → Bool
  | .alg | .secretLen | .secret _ => true
  | .id | .cmd | .status | .ctrl | .lastcmd | .digits | .period | .ctrLo | .ctrHi | .timeLo | .timeHi => false
  | .epochLo | .epochHi | .tctrLo | .tctrHi | .digestLen | .offset | .value | .code | .strlen => false
  | .codestr _ | .candLen | .cand _ | .digest _ => false

/-- A column of the table of rule R263: a fault code, the condition under which it is raised, and the commands
that can raise it. -/
structure FaultColumn where
  code : Nat
  holds : Bool
  raisedBy : List Instr

/-- The columns of rule R263 in order, with the conditions of rule R260 read off a state. -/
def faultTable (s : State) : List FaultColumn :=
  let n := s.digestLen.toNat
  let q := (s.time.toInt - s.epoch.toInt).tdiv s.period.toNat
  [⟨2, s.alg == 3, [.keynorm, .hmacctr, .hotpgen, .hotpvfy, .totpgen, .totpvfy]⟩,
   ⟨3, 256 < s.secretLen.toNat, [.keynorm, .hotpgen, .hotpvfy, .totpgen, .totpvfy]⟩,
   ⟨4, !s.keyvalid, [.hmacctr]⟩,
   ⟨5, s.period == 0, [.tstep, .totpgen, .totpvfy]⟩,
   ⟨6, 2 ^ 63 ≤ s.ctr.toNat, [.hmacctr, .hotpgen, .hotpvfy]⟩,
   ⟨6, q < 0 || 2 ^ 63 - 1 < q, [.tstep, .totpgen, .totpvfy]⟩,
   ⟨7, n == 0 || 64 < n || n < (s.digest.read (n - 1)).toNat % 16 + 4, [.extract, .trunc]⟩] ++
  [⟨8, s.digits == 0 || 10 < s.digits.toNat, [.reduce, .render, .trunc, .hotpgen, .hotpvfy, .totpgen, .totpvfy]⟩,
   ⟨9, 10 ^ s.digits.toNat ≤ s.code.toNat, [.render]⟩,
   ⟨10, s.strlen == 0, [.compare]⟩]

/-- The code a command reports: the lowest of those that apply, 0 if none does (R264). -/
def reportedFault (i : Instr) (s : State) : Nat :=
  match (faultTable s).find? (fun c => c.holds && c.raisedBy.contains i) with
  | some c => c.code
  | none => 0

end Sys2Proof.Machine
end

