-- ==== Sys2Proof/Certificates/Slice0/Obligations.lean ====
section
/-! DEFINITION. The statements for the provers, from the numbered rules of spec/. -/

open Sys2Proof Sys2Proof.Machine

/-! ### Encoding -/

/-- The 14 rows of the opcode map (R101), each word written out. -/
def Obligations.OpcodeMapDecodes : Prop :=
  decode 0x00000000 = .command .nop ∧ decode 0x00000001 = .command .clear ∧
    decode 0x00000010 = .command .keynorm ∧ decode 0x00000011 = .command .hmacctr ∧
    decode 0x00000020 = .command .extract ∧ decode 0x00000021 = .command .reduce ∧
    decode 0x00000022 = .command .render ∧ decode 0x00000023 = .command .trunc ∧
    decode 0x00000024 = .command .compare ∧ decode 0x00000030 = .command .hotpgen ∧
    decode 0x00000031 = .command .hotpvfy ∧ decode 0x00000040 = .command .tstep ∧
    decode 0x00000041 = .command .totpgen ∧ decode 0x00000042 = .command .totpvfy

/-- Decode and encode agree in both directions, over all 32-bit words: a word is a command's exactly when it is
the command's encoding, so no bit of a word is ignored (R100 to R102). -/
def Obligations.DecodeAgreesWithEncode : Prop :=
  ∀ (w : Word) (i : Instr), decode w = .command i ↔ w = encode i

/-- The illegal words are those rule R103 lists: reserved bits set, or an opcode outside the 14. -/
def Obligations.IllegalWordsAreExactlyTheUnassigned : Prop :=
  ∀ w : Word, decode w = .illegal ↔
    w.toNat / 256 ≠ 0 ∨
      w.toNat % 256 ∉ [0x00, 0x01, 0x10, 0x11, 0x20, 0x21, 0x22, 0x23, 0x24, 0x30, 0x31, 0x40, 0x41, 0x42]

/-- The register map is a bijection between registers and their offsets (R47, R49). -/
def Obligations.RegisterMapIsOneToOne : Prop :=
  ∀ (off : Nat) (r : Reg), Reg.atOffset off = some r ↔ Reg.offsetOf r = off

/-- `ERROR` is answered at exactly the offsets of rules R72, R73 and R80. -/
def Obligations.ErrorOffsetsAreExactlyTheUnmapped : Prop :=
  ∀ off : Nat, Reg.atOffset off = none ↔
    off % 4 ≠ 0 ∨ 0x200 ≤ off ∨ off = 0x078 ∨ off = 0x07C ∨ (0x0C0 ≤ off ∧ off ≤ 0x0FC)

/-! ### Host transactions -/

/-- A misaligned access, an access to a reserved offset or outside the window, and an access of another width
answer `ERROR` at once, busy or not, transfer no data and change no state (R267, R75). -/
def Obligations.BadAccessAnswersErrorAndChangesNothing : Prop :=
  ∀ s : State,
    (∀ off : Nat,
      (off % 4 ≠ 0 ∨ 0x200 ≤ off ∨ off = 0x078 ∨ off = 0x07C ∨ (0x0C0 ≤ off ∧ off ≤ 0x0FC)) →
      s.transact (.read off) = some (.read .error 0, s) ∧
        ∀ v, s.transact (.write off v) = some (.write .error, s)) ∧
    ∀ (w : OtherWidth) (off : Nat),
      s.transact (.readOther w off) = some (.read .error 0, s) ∧
        s.transact (.writeOther w off) = some (.write .error, s)

/-- Reads, field by field at their offsets (R72). A read that is not held answers `OKAY` and the register's word,
and changes no state; the word is the field that rule R72 lists for the offset, zero-extended. While a command
runs that holds of `ID`, `STATUS`, `CTRL` and `LASTCMD`, else of every mapped offset (R79). -/
def Obligations.ReadsHaveNoSideEffects : Prop :=
  ∀ s : State,
    (∀ r : Reg, (s.busy = false ∨ r = .id ∨ r = .status ∨ r = .ctrl ∨ r = .lastcmd) →
      s.transact (.read (Reg.offsetOf r)) = some (.read .okay (s.readReg r), s)) ∧
    (s.answersRead 0x000 0x474F5401 ∧
      s.answersRead 0x008 (s.busy.toNat + 2 * s.done.toNat + 4 * s.matched.toNat + 8 * s.keyvalid.toNat +
        256 * s.err.toNat) ∧
      s.answersRead 0x00C s.ie.toNat ∧ s.answersRead 0x010 s.lastcmd.toNat) ∧
    (s.busy = false →
      (s.answersRead 0x004 0 ∧ s.answersRead 0x014 s.digits.toNat ∧ s.answersRead 0x018 s.alg.toNat ∧
        s.answersRead 0x01C s.period.toNat) ∧
      (s.answersRead 0x020 (s.ctr.toNat % 2 ^ 32) ∧ s.answersRead 0x024 (s.ctr.toNat / 2 ^ 32) ∧
        s.answersRead 0x028 (s.time.toNat % 2 ^ 32) ∧ s.answersRead 0x02C (s.time.toNat / 2 ^ 32) ∧
        s.answersRead 0x030 (s.epoch.toNat % 2 ^ 32) ∧ s.answersRead 0x034 (s.epoch.toNat / 2 ^ 32) ∧
        s.answersRead 0x038 (s.tctr.toNat % 2 ^ 32) ∧ s.answersRead 0x03C (s.tctr.toNat / 2 ^ 32)) ∧
      (s.answersRead 0x040 s.secretLen.toNat ∧ s.answersRead 0x044 s.digestLen.toNat ∧
        s.answersRead 0x048 s.offset.toNat ∧ s.answersRead 0x04C s.value.toNat ∧
        s.answersRead 0x050 s.code.toNat ∧ s.answersRead 0x054 s.strlen.toNat ∧
        s.answersRead 0x064 s.candLen.toNat) ∧
      (∀ k, k < 3 → s.answersRead (0x058 + 4 * k) (s.codestr.lanesValue k)) ∧
      (∀ k, k < 4 → s.answersRead (0x068 + 4 * k) (s.cand.lanesValue k)) ∧
      (∀ k, k < 16 → s.answersRead (0x080 + 4 * k) (s.digest.lanesValue k)) ∧
      ∀ k, k < 64 → s.answersRead (0x100 + 4 * k) 0)

/-- What a register reads as after a host write to it: writable bits as written, reserved bits 0, read-only
registers as before, write-only registers 0, and `STATUS` with `DONE` cleared by a one (R46, R72, R73). While a command
runs that holds of the four registers that stay open, `ID`, `STATUS`, `CTRL` and `LASTCMD` (R74). -/
def Obligations.WriteThenReadBack : Prop :=
  ∀ (s : State) (r : Reg) (v : Word), r ≠ .cmd →
    (s.busy = false ∨ r = .id ∨ r = .status ∨ r = .ctrl ∨ r = .lastcmd) →
    ∃ s', s.hostWrite (Reg.offsetOf r) v = some (.okay, s') ∧ s'.busy = s.busy ∧
      s'.hostRead (Reg.offsetOf r) = some (.okay,
        match r with
        | .id => 0x474F5401
        | .status => s.readReg .status &&& ~~~(v &&& 2)
        | .ctrl => v &&& 1
        | .alg => v &&& 3
        | .digits | .digestLen | .candLen => v &&& 0xFF
        | .secretLen => v &&& 0xFFFF
        | .value => v &&& 0x7FFFFFFF
        | .period | .ctrLo | .ctrHi | .timeLo | .timeHi | .epochLo | .epochHi | .code | .cand _ | .digest _ => v
        | .lastcmd | .tctrLo | .tctrHi | .offset | .strlen | .codestr _ => s.readReg r
        | .secret _ | .cmd => 0)

/-- Registers never alias: a host write to one register other than `CMD` leaves what every other register but
`STATUS` reads as; and of the state it leaves every flag, every field and every stored byte, those of `SECRET`
too, but the ones that the register holds, with `KEYVALID` for `ALG`, `SECRET_LEN` and `SECRET` (R49, R73). -/
def Obligations.RegistersNeverAlias : Prop :=
  ∀ (s t : State) (r : Reg) (v : Word), r ≠ .cmd → t = s.writeReg r v →
    (∀ r' : Reg, r' ≠ r → r' ≠ .status → t.readReg r' = s.readReg r') ∧
    (t.busy = s.busy ∧ t.matched = s.matched ∧ t.err = s.err ∧ t.lastcmd = s.lastcmd ∧ t.tctr = s.tctr ∧
      t.offset = s.offset ∧ t.strlen = s.strlen ∧ t.codestr = s.codestr ∧ t.keyblk = s.keyblk) ∧
    (t.hostQueue = s.hostQueue ∧ t.schedule = s.schedule ∧ t.responses = s.responses) ∧
    (r ≠ .status → t.done = s.done) ∧
    (r ≠ .alg → r ≠ .secretLen → (∀ k, r ≠ .secret k) → t.keyvalid = s.keyvalid) ∧
    (r ≠ .ctrl → t.ie = s.ie) ∧ (r ≠ .digits → t.digits = s.digits) ∧ (r ≠ .alg → t.alg = s.alg) ∧
    (r ≠ .period → t.period = s.period) ∧ (r ≠ .ctrLo → r ≠ .ctrHi → t.ctr = s.ctr) ∧
    (r ≠ .timeLo → r ≠ .timeHi → t.time = s.time) ∧ (r ≠ .epochLo → r ≠ .epochHi → t.epoch = s.epoch) ∧
    (r ≠ .secretLen → t.secretLen = s.secretLen) ∧ (r ≠ .digestLen → t.digestLen = s.digestLen) ∧
    (r ≠ .candLen → t.candLen = s.candLen) ∧ (r ≠ .value → t.value = s.value) ∧ (r ≠ .code → t.code = s.code) ∧
    (∀ a, (∀ k, r = .cand k → a < 4 * k.val ∨ 4 * k.val + 4 ≤ a) → t.cand.read a = s.cand.read a) ∧
    (∀ a, (∀ k, r = .digest k → a < 4 * k.val ∨ 4 * k.val + 4 ≤ a) → t.digest.read a = s.digest.read a) ∧
    ∀ a, (∀ k, r = .secret k → a < 4 * k.val ∨ 4 * k.val + 4 ≤ a) → t.secret.read a = s.secret.read a

/-- The lane order of buffer words: the byte of lowest index is in the least significant lane, in both
directions, and a word write leaves every other byte (R76). -/
def Obligations.BufferWordsAreLittleEndianLanes : Prop :=
  ∀ (m : Memory) (k : Nat),
    (m.word k).toNat =
      (m.read (4 * k)).toNat + (m.read (4 * k + 1)).toNat * 2 ^ 8 + (m.read (4 * k + 2)).toNat * 2 ^ 16 +
        (m.read (4 * k + 3)).toNat * 2 ^ 24 ∧
    ∀ (v : Word) (a : Nat), ((m.setWord k v).read a).toNat =
      if 4 * k ≤ a ∧ a < 4 * k + 4 then v.toNat / 2 ^ (8 * (a - 4 * k)) % 256 else (m.read a).toNat

/-- The 64-bit registers (R77): the `_LO` word is bits 31:0 and the `_HI` word bits 63:32, and a host write to one
half sets that half and keeps the other. -/
def Obligations.SixtyFourBitRegistersAreTwoHalves : Prop :=
  ∀ (s : State) (v : Word),
    ((s.readReg .ctrLo).toNat = s.ctr.toNat % 2 ^ 32 ∧ (s.readReg .ctrHi).toNat = s.ctr.toNat / 2 ^ 32 ∧
      (s.readReg .timeLo).toNat = s.time.toNat % 2 ^ 32 ∧ (s.readReg .timeHi).toNat = s.time.toNat / 2 ^ 32 ∧
      (s.readReg .epochLo).toNat = s.epoch.toNat % 2 ^ 32 ∧ (s.readReg .epochHi).toNat = s.epoch.toNat / 2 ^ 32 ∧
      (s.readReg .tctrLo).toNat = s.tctr.toNat % 2 ^ 32 ∧ (s.readReg .tctrHi).toNat = s.tctr.toNat / 2 ^ 32) ∧
    (s.writeReg .ctrLo v).ctr.toNat = s.ctr.toNat / 2 ^ 32 * 2 ^ 32 + v.toNat ∧
    (s.writeReg .ctrHi v).ctr.toNat = v.toNat * 2 ^ 32 + s.ctr.toNat % 2 ^ 32 ∧
    (s.writeReg .timeLo v).time.toNat = s.time.toNat / 2 ^ 32 * 2 ^ 32 + v.toNat ∧
    (s.writeReg .timeHi v).time.toNat = v.toNat * 2 ^ 32 + s.time.toNat % 2 ^ 32 ∧
    (s.writeReg .epochLo v).epoch.toNat = s.epoch.toNat / 2 ^ 32 * 2 ^ 32 + v.toNat ∧
    (s.writeReg .epochHi v).epoch.toNat = v.toNat * 2 ^ 32 + s.epoch.toNat % 2 ^ 32

/-- The layout of `STATUS`: `BUSY` 0, `DONE` 1, `MATCH` 2, `KEYVALID` 3, `ERR` 11:8, every other bit 0 (R23). -/
def Obligations.StatusWordLayout : Prop :=
  ∀ s : State, (s.readReg .status).toNat =
    s.busy.toNat + 2 * s.done.toNat + 4 * s.matched.toNat + 8 * s.keyvalid.toNat + 256 * s.err.toNat

/-- The hold rule (R74). A transaction is held exactly when a command runs and it is a word access to a mapped
register other than `ID`, `STATUS`, `CTRL` and `LASTCMD`. The host's turn on a held transaction changes nothing;
the engine's turn completes the command; the host's next turn performs the transaction in the state that
`Complete` left, with the effect it has there (the turns are the model's, notes/assumptions/2.md). -/
def Obligations.HeldTransactionRunsAfterComplete : Prop :=
  (∀ (s : State) (t : Transaction), s.transact t = none ↔
    s.busy = true ∧ ∃ r : Reg, r ≠ .id ∧ r ≠ .status ∧ r ≠ .ctrl ∧ r ≠ .lastcmd ∧
      (t = .read (Reg.offsetOf r) ∨ ∃ v, t = .write (Reg.offsetOf r) v)) ∧
  ∀ (s : State) (t : Transaction) (q : List HostOp) (sch : List Agent),
    s.transact t = none → s.hostQueue = .access t :: q → s.schedule = .host :: .engine :: .host :: sch →
    step s = .next { s with schedule := .engine :: .host :: sch } ∧
    ∃ u, step { s with schedule := .engine :: .host :: sch } = .next u ∧ u.busy = false ∧
      u.hostQueue = s.hostQueue ∧ u.schedule = .host :: sch ∧
      ∃ resp s', u.transact t = some (resp, s') ∧
        step u = .next { s' with schedule := sch, hostQueue := q, responses := resp :: u.responses }

/-! ### Accept, Complete, faults -/

/-- Accept (R52): a host write to `CMD` when idle latches the word, sets `BUSY`, clears `DONE`, `ERR` and
`MATCH`, and changes nothing else; the word is not checked. -/
def Obligations.AcceptLatchesAndClears : Prop :=
  ∀ (s : State) (w : Word), s.busy = false →
    s.hostWrite 0x004 w =
      some (.okay, { s with lastcmd := w, busy := true, done := false, err := 0, matched := false })

/-- One step is the turn of the agent at the head of the schedule; with no turn laid down, a running command completes
and an idle engine leaves the turn to the host. A host turn performs the pending transaction, or stays on a held
one, or is one recorded read of `STATUS` of a `WAIT`, which is over when `BUSY` reads 0, or with nothing pending does
nothing. The schedule, the pending operations, the polls and the responses are the model's own way to say the
interleaving (notes/assumptions/1.md to 3.md, 6.md and 7.md). -/
def Obligations.StepIsTheTurnOfTheNextAgent : Prop :=
  ∀ (s : State) (sch : List Agent),
    (∀ (t : Transaction) (q : List HostOp) (resp : Response) (s' : State),
      s.schedule = .host :: sch → s.hostQueue = .access t :: q → s.transact t = some (resp, s') →
      step s = .next { s' with schedule := sch, hostQueue := q, responses := resp :: s.responses }) ∧
    (∀ (t : Transaction) (q : List HostOp),
      s.schedule = .host :: sch → s.hostQueue = .access t :: q → s.transact t = none →
      step s = .next { s with schedule := sch }) ∧
    (∀ q : List HostOp, s.schedule = .host :: sch → s.hostQueue = .wait :: q →
      step s = .next
        { s with
          schedule := sch, hostQueue := if s.busy then .wait :: q else q
          responses := .read .okay (s.readReg .status) :: s.responses }) ∧
    (s.schedule = .host :: sch → s.hostQueue = [] → step s = .next { s with schedule := sch }) ∧
    (s.schedule = .engine :: sch → step s = State.engineTurn { s with schedule := sch }) ∧
    (s.schedule = .reset :: sch →
      step s = .next
        { State.reset with hostQueue := s.hostQueue, schedule := sch, responses := s.responses }) ∧
    (s.schedule = [] → s.busy = true → step s = s.engineTurn) ∧
    (s.schedule = [] → s.busy = false → step s = .next s.hostTurn ∧ step s = step { s with schedule := [.host] })

/-- A step runs the decoded command: at the engine's turn, or when no turn is laid down, with `BUSY = 1` and a
legal word in `LASTCMD`, the step is the command's execution (R53), with the turn taken off the schedule (the
schedule is the model's, notes/assumptions/2.md). -/
def Obligations.StepRunsTheLatchedCommand : Prop :=
  ∀ (s : State) (i : Instr), s.busy = true → decode s.lastcmd = .command i → i.wellFormed = true →
    (∀ sch, s.schedule = .engine :: sch → step s = exec i { s with schedule := sch }) ∧
    (s.schedule = [] → step s = exec i s)

/-- The word placed for the next step is the command the next step runs, in the state its Accept leaves
(the placing is the model's, notes/assumptions/5.md). -/
def Obligations.PlacedWordRunsNext : Prop :=
  ∀ (s : State) (i : Instr), step (s.withFetchWord 32 (encode i).toNat) = exec i (s.accept (encode i))

/-- An illegal word is accepted like any other and completes with `E_ILLCMD` and no other write, whatever the
registers hold (R261). -/
def Obligations.IllegalWordIsAcceptedThenFaults : Prop :=
  ∀ (s : State) (w : Word), decode w = .illegal → s.busy = false →
    ∃ u, s.hostWrite 0x004 w = some (.okay, u) ∧
      u = { s with lastcmd := w, busy := true, done := false, err := 0, matched := false } ∧
      u.engineTurn = .next { s with lastcmd := w, busy := false, done := true, err := 1, matched := false }

/-- Every step and every command, in every state, answers a next state: the machine has no stop (R269 for commands,
R312 for the rest). That a host turn, a held turn and a reset are steps at all is the model's form
(notes/assumptions/2.md), and that nothing stops it is read from those rules (notes/assumptions/13.md). -/
def Obligations.EveryStepAnswersANextState : Prop :=
  (∀ s : State, ∃ t, step s = .next t) ∧ ∀ (i : Instr) (s : State), ∃ t, exec i s = .next t

/-- An idle engine does nothing at its turn, and with nothing pending a step changes nothing (R51, R278;
the turns are the model's, notes/assumptions/2.md). -/
def Obligations.IdleEngineDoesNothing : Prop :=
  ∀ s : State, s.busy = false →
    (∀ sch, s.schedule = .engine :: sch → step s = .next { s with schedule := sch }) ∧
    (s.schedule = [] → s.hostQueue = [] → step s = .next s)

/-- The fault table: every command completes with exactly the fault code that the columns of rule R263 and the
lowest-code rule R264 give, 0 when no column applies; and the check that fails comes before every write. -/
def Obligations.LowestApplicableFaultIsReported : Prop :=
  ∀ (i : Instr) (s : State), ∃ t, exec i s = .next t ∧ t.err.toNat = reportedFault i s ∧
    (reportedFault i s ≠ 0 → t = s.faultedWith (BitVec.ofNat 4 (reportedFault i s)))

/-- Faults are precise: a command that ends with an error code changed nothing but `ERR`, `BUSY` and `DONE`
(R262). -/
def Obligations.FaultsArePrecise : Prop :=
  ∀ (i : Instr) (s t : State), exec i s = .next t → t.err ≠ 0 →
    t = { s with err := t.err, busy := false, done := true }

/-- The "W" columns of the operand table: what no command writes, and what only the named commands write
(R104). -/
def Obligations.CommandsWriteOnlyTheirOperandTable : Prop :=
  ∀ (i : Instr) (s t : State), exec i s = .next t →
    (t.digits = s.digits ∧ t.alg = s.alg ∧ t.period = s.period ∧ t.epoch = s.epoch ∧ t.ctr = s.ctr ∧
      t.time = s.time ∧ t.ie = s.ie ∧ t.lastcmd = s.lastcmd) ∧
    (t.hostQueue = s.hostQueue ∧ t.schedule = s.schedule ∧ t.responses = s.responses) ∧
    (t.busy = false ∧ t.done = true) ∧
    (i ≠ .clear →
      t.secret = s.secret ∧ t.secretLen = s.secretLen ∧ t.cand = s.cand ∧ t.candLen = s.candLen) ∧
    (i ∉ [.clear, .keynorm, .hotpgen, .hotpvfy, .totpgen, .totpvfy] →
      t.keyblk = s.keyblk ∧ t.keyvalid = s.keyvalid) ∧
    (i ∉ [.clear, .tstep, .totpgen, .totpvfy] → t.tctr = s.tctr) ∧
    (i ∉ [.clear, .hmacctr, .hotpgen, .hotpvfy, .totpgen, .totpvfy] →
      t.digest = s.digest ∧ t.digestLen = s.digestLen) ∧
    (i ∉ [.clear, .extract, .trunc, .hotpgen, .hotpvfy, .totpgen, .totpvfy] →
      t.offset = s.offset ∧ t.value = s.value) ∧
    (i ∉ [.clear, .reduce, .trunc, .hotpgen, .hotpvfy, .totpgen, .totpvfy] → t.code = s.code) ∧
    (i ∉ [.clear, .render, .trunc, .hotpgen, .hotpvfy, .totpgen, .totpvfy] →
      t.codestr = s.codestr ∧ t.strlen = s.strlen) ∧
    (i ∉ [.compare, .hotpvfy, .totpvfy] → t.matched = s.matched)

/-! ### Housekeeping -/

/-- `NOP` (R250): it completes with no error and changes nothing else; with its Accept, `MATCH` is cleared and
`LASTCMD` is 0. -/
def Obligations.NopOnlyCompletes : Prop :=
  ∀ s : State, exec .nop s = .next { s with busy := false, done := true, err := 0 } ∧
    exec .nop (s.accept 0x00000000) =
      .next { s with lastcmd := 0, busy := false, done := true, err := 0, matched := false }

/-- `CLEAR` (R251) completes in every state; the secret and everything derived from it read zero, and everything
else is kept; with its Accept, `MATCH` and `ERR` are 0 and `LASTCMD` reads 1. -/
def Obligations.ClearZeroizes : Prop :=
  ∀ s : State, ∃ t, exec .clear s = .next t ∧
    (∀ a, t.secret.read a = 0 ∧ t.keyblk.read a = 0 ∧ t.digest.read a = 0 ∧ t.codestr.read a = 0 ∧
      t.cand.read a = 0) ∧
    t = { s with
          secret := t.secret, secretLen := 0, keyblk := t.keyblk, keyvalid := false
          digest := t.digest, digestLen := 0, offset := 0, value := 0, code := 0
          codestr := t.codestr, strlen := 0, cand := t.cand, candLen := 0, tctr := 0
          busy := false, done := true, err := 0 } ∧
    exec .clear (s.accept 0x00000001) = .next { t with lastcmd := 0x00000001, matched := false }

/-- `CLEAR` leaves nothing of the secret: two states that agree on the configuration and on what is not secret
become the same state (R251, R308). -/
def Obligations.ClearLeavesNoTraceOfTheSecret : Prop :=
  ∀ s t : State, s.digits = t.digits → s.alg = t.alg → s.period = t.period → s.epoch = t.epoch → s.ctr = t.ctr →
    s.time = t.time → s.ie = t.ie → s.lastcmd = t.lastcmd → s.matched = t.matched → s.hostQueue = t.hostQueue →
    s.schedule = t.schedule → s.responses = t.responses →
    exec .clear s = exec .clear t

/-! ### Key and HMAC -/

/-- `KEYNORM` (R192). On a legal `ALG` and `SECRET_LEN`, `KEYBLK` becomes the secret, or its hash when it is longer
than the block, followed by zeros, `KEYVALID` is set, and nothing else changes. Otherwise it faults with `E_ALG`,
else `E_SECLEN`. -/
def Obligations.KeynormNormalizesTheSecret : Prop :=
  ∀ s : State,
    (∀ a : HashAlg, HashAlg.ofField s.alg = some a → s.secretLen.toNat ≤ 256 →
      ∃ t, exec .keynorm s = .next t ∧
        t = { s with keyblk := t.keyblk, keyvalid := true, busy := false, done := true, err := 0 } ∧
        (s.secretLen.toNat ≤ a.blockLen →
          ∀ k, t.keyblk.read k = if k < s.secretLen.toNat then s.secret.read k else 0) ∧
        (a.blockLen < s.secretLen.toNat →
          ∀ k, t.keyblk.read k =
            if k < a.digestLen then (hash a (s.secret.bytes s.secretLen.toNat)).getD k 0 else 0)) ∧
    (s.alg = 3 → exec .keynorm s = .next (s.faultedWith 2)) ∧
    (s.alg ≠ 3 → 256 < s.secretLen.toNat → exec .keynorm s = .next (s.faultedWith 3))

/-- `HMACCTR` (R193). With a legal `ALG`, a valid key block and a counter below `2^63`, `DIGEST` becomes the hash of
the key block xor `0x5C` followed by the hash of the key block xor `0x36` followed by the eight counter bytes,
then zeros, `DIGEST_LEN` becomes its length, and nothing else changes. Otherwise it faults with `E_ALG`, else
`E_NOKEY`, else `E_CTRRANGE`. -/
def Obligations.HmacctrComputesTheHmac : Prop :=
  ∀ s : State,
    (∀ a : HashAlg, HashAlg.ofField s.alg = some a → s.keyvalid = true → s.ctr.toNat < 2 ^ 63 →
      ∃ t, exec .hmacctr s = .next t ∧
        t = { s with digest := t.digest, digestLen := BitVec.ofNat 8 a.digestLen
                     busy := false, done := true, err := 0 } ∧
        t.digest.bytes a.digestLen =
          hash a ((s.keyblk.bytes a.blockLen).map (· ^^^ 0x5C) ++
            hash a ((s.keyblk.bytes a.blockLen).map (· ^^^ 0x36) ++
              [56, 48, 40, 32, 24, 16, 8, 0].map fun p => s.ctr.extractLsb' p 8)) ∧
        ∀ k, a.digestLen ≤ k → t.digest.read k = 0) ∧
    (s.alg = 3 → exec .hmacctr s = .next (s.faultedWith 2)) ∧
    (s.alg ≠ 3 → s.keyvalid = false → exec .hmacctr s = .next (s.faultedWith 4)) ∧
    (s.alg ≠ 3 → s.keyvalid = true → 2 ^ 63 ≤ s.ctr.toNat → exec .hmacctr s = .next (s.faultedWith 6))

/-- Padding (R131): the padded message is a whole number of blocks, and no smaller number of zeros makes it so. -/
def Obligations.PaddingIsTheLeastThatFillsBlocks : Prop :=
  ∀ (m : Bytes) (blk lf : Nat), 0 < blk →
    (padMessage m blk lf).length % blk = 0 ∧
      ∀ z, (m.length + 1 + z + lf) % blk = 0 → padZeros m.length blk lf ≤ z

/-! ### Truncation -/

/-- `EXTRACT` (R165). On a digest in the domain, `OFFSET` is the low four bits of the last byte and `VALUE` the low
31 bits of the four bytes there read big-endian; nothing else changes. Otherwise it faults with `E_DIGLEN`. -/
def Obligations.ExtractSelectsFourBytes : Prop :=
  ∀ (s : State) (n o : Nat), n = s.digestLen.toNat → o = (s.digest.read (n - 1)).toNat % 16 →
    (1 ≤ n → n ≤ 64 → o + 4 ≤ n →
      exec .extract s = .next
        { s with
          offset := BitVec.ofNat 4 o
          value := (s.digest.read o ++ s.digest.read (o + 1) ++ s.digest.read (o + 2) ++
            s.digest.read (o + 3) : BitVec 32).setWidth 31
          busy := false, done := true, err := 0 }) ∧
    (n = 0 ∨ 64 < n ∨ n < o + 4 → exec .extract s = .next (s.faultedWith 7))

/-- `REDUCE` (R166). On a legal `DIGITS`, `CODE` is `VALUE mod 10^DIGITS`, exactly; nothing else changes. Otherwise
it faults with `E_DIGITS`. -/
def Obligations.ReduceTakesTheRemainder : Prop :=
  ∀ s : State,
    (1 ≤ s.digits.toNat → s.digits.toNat ≤ 10 →
      ∃ t, exec .reduce s = .next t ∧ t.code.toNat = s.value.toNat % 10 ^ s.digits.toNat ∧
        t = { s with code := t.code, busy := false, done := true, err := 0 }) ∧
    (s.digits.toNat = 0 ∨ 10 < s.digits.toNat → exec .reduce s = .next (s.faultedWith 8))

/-- `RENDER` (R167). On a legal `DIGITS` and a `CODE` below `10^DIGITS`, character `i` is `0x30` plus the decimal
digit of weight `10^(DIGITS-1-i)`, the rest of `CODESTR` is zero, `STRLEN` is `DIGITS`; nothing else changes.
Otherwise it faults with `E_DIGITS`, else `E_CODERANGE`. -/
def Obligations.RenderWritesDecimalDigits : Prop :=
  ∀ s : State,
    (1 ≤ s.digits.toNat → s.digits.toNat ≤ 10 → s.code.toNat < 10 ^ s.digits.toNat →
      ∃ t, exec .render s = .next t ∧
        t = { s with codestr := t.codestr, strlen := s.digits, busy := false, done := true, err := 0 } ∧
        (∀ i, i < s.digits.toNat →
          (t.codestr.read i).toNat = 0x30 + s.code.toNat / 10 ^ (s.digits.toNat - 1 - i) % 10) ∧
        ∀ i, s.digits.toNat ≤ i → t.codestr.read i = 0) ∧
    (s.digits.toNat = 0 ∨ 10 < s.digits.toNat → exec .render s = .next (s.faultedWith 8)) ∧
    (1 ≤ s.digits.toNat → s.digits.toNat ≤ 10 → 10 ^ s.digits.toNat ≤ s.code.toNat →
      exec .render s = .next (s.faultedWith 9))

/-- The numeral a code string denotes, read most significant digit first, is `CODE` after every command that
renders without a fault (R169 (d), R164). -/
def Obligations.CodeStringDenotesCode : Prop :=
  ∀ (i : Instr) (s t : State), i ∈ [Instr.render, .trunc, .hotpgen, .hotpvfy, .totpgen, .totpvfy] →
    exec i s = .next t → t.err = 0 →
    (t.codestr.bytes t.strlen.toNat).foldl (fun n c => 10 * n + (c.toNat - 0x30)) 0 = t.code.toNat ∧
      t.strlen = s.digits

/-- `TRUNC` (R168). On a digest in the domain and a legal `DIGITS`, all five results are written at once and nothing
else changes. Otherwise it faults with `E_DIGLEN`, else `E_DIGITS`, and writes no result. -/
def Obligations.TruncDoesTheWholeTruncation : Prop :=
  ∀ (s : State) (n o : Nat), n = s.digestLen.toNat → o = (s.digest.read (n - 1)).toNat % 16 →
    (1 ≤ n → n ≤ 64 → o + 4 ≤ n → 1 ≤ s.digits.toNat → s.digits.toNat ≤ 10 →
      ∃ t, exec .trunc s = .next t ∧
        t = { s with offset := t.offset, value := t.value, code := t.code, codestr := t.codestr
                     strlen := s.digits, busy := false, done := true, err := 0 } ∧
        t.offset.toNat = o ∧
        t.value = (s.digest.read o ++ s.digest.read (o + 1) ++ s.digest.read (o + 2) ++
          s.digest.read (o + 3) : BitVec 32).setWidth 31 ∧
        t.code.toNat = t.value.toNat % 10 ^ s.digits.toNat ∧
        (∀ i, i < s.digits.toNat →
          (t.codestr.read i).toNat = 0x30 + t.code.toNat / 10 ^ (s.digits.toNat - 1 - i) % 10) ∧
        ∀ i, s.digits.toNat ≤ i → t.codestr.read i = 0) ∧
    (n = 0 ∨ 64 < n ∨ n < o + 4 → exec .trunc s = .next (s.faultedWith 7)) ∧
    (1 ≤ n → n ≤ 64 → o + 4 ≤ n → s.digits.toNat = 0 ∨ 10 < s.digits.toNat →
      exec .trunc s = .next (s.faultedWith 8))

/-- `TRUNC` is `EXTRACT`, `REDUCE`, `RENDER` in that order when none faults (R169 (a)). -/
def Obligations.TruncIsExtractReduceRender : Prop :=
  ∀ s a b c : State, exec .extract s = .next a → a.err = 0 → exec .reduce a = .next b → b.err = 0 →
    exec .render b = .next c → c.err = 0 → exec .trunc s = .next c

/-- The truncation is pure: its results depend on `DIGEST[0..DIGEST_LEN)` and `DIGITS` only (R169 (b)). -/
def Obligations.TruncDependsOnDigestAndDigitsOnly : Prop :=
  ∀ s s' t t' : State, s.digestLen = s'.digestLen →
    (∀ k, k < s.digestLen.toNat → s.digest.read k = s'.digest.read k) → s.digits = s'.digits →
    exec .trunc s = .next t → exec .trunc s' = .next t' → t.err = 0 →
    t'.err = 0 ∧ t.offset = t'.offset ∧ t.value = t'.value ∧ t.code = t'.code ∧ t.codestr = t'.codestr ∧
      t.strlen = t'.strlen

/-- `COMPARE` (R170). With a rendered code string, `MATCH` is the equality of the candidate and the code string as
byte strings, no error either way, nothing else changes. With none, it faults with `E_NOSTR`. -/
def Obligations.CompareIsStringEquality : Prop :=
  ∀ s : State,
    (s.strlen ≠ 0 →
      ∃ t, exec .compare s = .next t ∧
        t = { s with matched := t.matched, busy := false, done := true, err := 0 } ∧
        (t.matched = true ↔ s.cand.bytes s.candLen.toNat = s.codestr.bytes s.strlen.toNat)) ∧
    (s.strlen = 0 → exec .compare s = .next (s.faultedWith 10))

/-! ### HOTP -/

/-- `HOTPGEN` (R210). On legal operands `CODESTR[0..STRLEN)` is `HOTP(ALG, SECRET[0..SECRET_LEN), CTR, DIGITS)`; the
key block, the digest, the offset, the value and the code are those of its stages; nothing else changes, not
`CTR` and not the candidate. Otherwise it faults with `E_ALG`, else `E_SECLEN`, else `E_CTRRANGE`, else
`E_DIGITS`, and writes no result. -/
def Obligations.HotpgenGeneratesTheCode : Prop :=
  ∀ s : State,
    (∀ a : HashAlg, HashAlg.ofField s.alg = some a → s.secretLen.toNat ≤ 256 → s.ctr.toNat < 2 ^ 63 →
      1 ≤ s.digits.toNat → s.digits.toNat ≤ 10 →
      ∃ t, exec .hotpgen s = .next t ∧
        t = { s with
              keyblk := t.keyblk, keyvalid := true, digest := t.digest, digestLen := BitVec.ofNat 8 a.digestLen
              offset := t.offset, value := t.value, code := t.code, codestr := t.codestr, strlen := s.digits
              busy := false, done := true, err := 0 } ∧
        t.codestr.bytes s.digits.toNat = hotp a (s.secret.bytes s.secretLen.toNat) s.ctr.toNat s.digits.toNat ∧
        t.keyblk.bytes 128 = normKey a (s.secret.bytes s.secretLen.toNat) ++ List.replicate (128 - a.blockLen) 0 ∧
        t.digest.bytes 64 =
          hmac a (normKey a (s.secret.bytes s.secretLen.toNat)) (be64 s.ctr.toNat) ++
            List.replicate (64 - a.digestLen) 0 ∧
        t.offset.toNat = (t.digest.read (a.digestLen - 1)).toNat % 16 ∧
        t.value.toNat = dtValue (t.digest.bytes a.digestLen) ∧
        t.code.toNat = t.value.toNat % 10 ^ s.digits.toNat ∧
        ∀ i, s.digits.toNat ≤ i → t.codestr.read i = 0) ∧
    (s.alg = 3 → exec .hotpgen s = .next (s.faultedWith 2)) ∧
    (s.alg ≠ 3 → 256 < s.secretLen.toNat → exec .hotpgen s = .next (s.faultedWith 3)) ∧
    (s.alg ≠ 3 → s.secretLen.toNat ≤ 256 → 2 ^ 63 ≤ s.ctr.toNat → exec .hotpgen s = .next (s.faultedWith 6)) ∧
    (s.alg ≠ 3 → s.secretLen.toNat ≤ 256 → s.ctr.toNat < 2 ^ 63 → s.digits.toNat = 0 ∨ 10 < s.digits.toNat →
      exec .hotpgen s = .next (s.faultedWith 8))

/-- `HOTPGEN` is `KEYNORM`, `HMACCTR`, `TRUNC` in that order: it completes without a fault in a state exactly
when the three do one after the other, and the state they reach is the same (R212 (d)). -/
def Obligations.HotpgenIsKeynormHmacctrTrunc : Prop :=
  ∀ s t : State, (exec .hotpgen s = .next t ∧ t.err = 0) ↔
    ∃ a b, exec .keynorm s = .next a ∧ a.err = 0 ∧ exec .hmacctr a = .next b ∧ b.err = 0 ∧
      exec .trunc b = .next t ∧ t.err = 0

/-- `HOTPVFY` (R211). On legal operands it writes what `HOTPGEN` writes, and `MATCH = 1` exactly when the candidate
equals the HOTP string as a byte string; no error either way. Where `HOTPGEN` faults, it takes the same fault. -/
def Obligations.HotpvfyMatchesExactlyTheCode : Prop :=
  ∀ s : State,
    (∀ a : HashAlg, HashAlg.ofField s.alg = some a → s.secretLen.toNat ≤ 256 → s.ctr.toNat < 2 ^ 63 →
      1 ≤ s.digits.toNat → s.digits.toNat ≤ 10 →
      ∃ g t, exec .hotpgen s = .next g ∧ exec .hotpvfy s = .next t ∧ t = { g with matched := t.matched } ∧
        t.err = 0 ∧
        (t.matched = true ↔
          s.cand.bytes s.candLen.toNat =
            hotp a (s.secret.bytes s.secretLen.toNat) s.ctr.toNat s.digits.toNat)) ∧
    ∀ g, exec .hotpgen s = .next g → g.err ≠ 0 → exec .hotpvfy s = .next g

/-- Verification consistency: after a `HOTPGEN` that did not fault, with the code string copied to the
candidate, `HOTPVFY` matches; with any other candidate it does not (R212 (c)). -/
def Obligations.VerifyAcceptsExactlyTheGeneratedCode : Prop :=
  ∀ (s g : State) (cand : Memory) (len : BitVec 8), exec .hotpgen s = .next g → g.err = 0 →
    ∃ t, exec .hotpvfy { g with cand := cand, candLen := len } = .next t ∧ t.err = 0 ∧
      (t.matched = true ↔ cand.bytes len.toNat = g.codestr.bytes g.strlen.toNat)

/-- Determinism: `HOTPGEN` from two states that agree on `ALG`, `SECRET[0..SECRET_LEN)`, `SECRET_LEN`, `CTR` and
`DIGITS` writes equal results (R212 (a)). -/
def Obligations.HotpgenIsDeterminedByItsOperands : Prop :=
  ∀ s s' t t' : State, s.alg = s'.alg → s.secretLen = s'.secretLen →
    (∀ k, k < s.secretLen.toNat → s.secret.read k = s'.secret.read k) → s.ctr = s'.ctr → s.digits = s'.digits →
    exec .hotpgen s = .next t → exec .hotpgen s' = .next t' → t.err = 0 →
    t'.err = 0 ∧ t.keyblk = t'.keyblk ∧ t.keyvalid = t'.keyvalid ∧ t.digest = t'.digest ∧
      t.digestLen = t'.digestLen ∧ t.offset = t'.offset ∧ t.value = t'.value ∧ t.code = t'.code ∧
      t.codestr = t'.codestr ∧ t.strlen = t'.strlen

/-- The source's three vectors: with SHA-1, six digits and the secret "12345678901234567890", `HOTPGEN` gives
"755224", "287082" and "520489" for counters 0, 1 and 9 (R213). -/
def Obligations.PublishedHotpVectors : Prop :=
  ∀ (c : DWord) (code : Bytes),
    (c, code) ∈ [((0 : DWord), ([0x37, 0x35, 0x35, 0x32, 0x32, 0x34] : Bytes)),
      (1, [0x32, 0x38, 0x37, 0x30, 0x38, 0x32]), (9, [0x35, 0x32, 0x30, 0x34, 0x38, 0x39])] →
    ∃ t, exec .hotpgen
        { State.reset with
          secret := Memory.ofBytes
            [0x31, 0x32, 0x33, 0x34, 0x35, 0x36, 0x37, 0x38, 0x39, 0x30, 0x31, 0x32, 0x33, 0x34, 0x35, 0x36, 0x37,
              0x38, 0x39, 0x30]
          secretLen := 20, ctr := c } = .next t ∧
      t.err = 0 ∧ t.strlen = 6 ∧ t.codestr.bytes 6 = code

/-! ### TOTP -/

/-- `TSTEP` (R231). With a nonzero period and a quotient in range, `TCTR` is the exact difference divided by the
period, truncated toward zero; nothing else changes. Otherwise it faults with `E_PERIOD`, else `E_CTRRANGE`. -/
def Obligations.TstepTruncatesTowardZero : Prop :=
  ∀ (s : State) (q : Int), q = (s.time.toInt - s.epoch.toInt).tdiv s.period.toNat →
    (s.period ≠ 0 → 0 ≤ q → q ≤ 2 ^ 63 - 1 →
      ∃ t, exec .tstep s = .next t ∧ (t.tctr.toNat : Int) = q ∧
        t = { s with tctr := t.tctr, busy := false, done := true, err := 0 }) ∧
    (s.period = 0 → exec .tstep s = .next (s.faultedWith 5)) ∧
    (s.period ≠ 0 → q < 0 ∨ 2 ^ 63 - 1 < q → exec .tstep s = .next (s.faultedWith 6))

/-- `TOTPGEN` (R232). On legal operands `TCTR` is the time step `q`, the stages of `HOTPGEN` are done with `q` in
place of `CTR`, and nothing else changes; `CTR` is neither read nor written. Otherwise it faults with `E_ALG`,
else `E_SECLEN`, else `E_PERIOD`, else `E_CTRRANGE`, else `E_DIGITS`, and writes no result. -/
def Obligations.TotpgenGeneratesTheCode : Prop :=
  ∀ (s : State) (q : Int), q = (s.time.toInt - s.epoch.toInt).tdiv s.period.toNat →
    (∀ a : HashAlg, HashAlg.ofField s.alg = some a → s.secretLen.toNat ≤ 256 → s.period ≠ 0 →
      0 ≤ q → q ≤ 2 ^ 63 - 1 → 1 ≤ s.digits.toNat → s.digits.toNat ≤ 10 →
      ∃ t, exec .totpgen s = .next t ∧
        t = { s with
              tctr := t.tctr, keyblk := t.keyblk, keyvalid := true, digest := t.digest
              digestLen := BitVec.ofNat 8 a.digestLen, offset := t.offset, value := t.value, code := t.code
              codestr := t.codestr, strlen := s.digits, busy := false, done := true, err := 0 } ∧
        (t.tctr.toNat : Int) = q ∧
        t.codestr.bytes s.digits.toNat =
          hotp a (s.secret.bytes s.secretLen.toNat) t.tctr.toNat s.digits.toNat ∧
        t.keyblk.bytes 128 = normKey a (s.secret.bytes s.secretLen.toNat) ++ List.replicate (128 - a.blockLen) 0 ∧
        t.digest.bytes 64 =
          hmac a (normKey a (s.secret.bytes s.secretLen.toNat)) (be64 t.tctr.toNat) ++
            List.replicate (64 - a.digestLen) 0 ∧
        t.offset.toNat = (t.digest.read (a.digestLen - 1)).toNat % 16 ∧
        t.value.toNat = dtValue (t.digest.bytes a.digestLen) ∧
        t.code.toNat = t.value.toNat % 10 ^ s.digits.toNat ∧
        ∀ i, s.digits.toNat ≤ i → t.codestr.read i = 0) ∧
    (s.alg = 3 → exec .totpgen s = .next (s.faultedWith 2)) ∧
    (s.alg ≠ 3 → 256 < s.secretLen.toNat → exec .totpgen s = .next (s.faultedWith 3)) ∧
    (s.alg ≠ 3 → s.secretLen.toNat ≤ 256 → s.period = 0 → exec .totpgen s = .next (s.faultedWith 5)) ∧
    (s.alg ≠ 3 → s.secretLen.toNat ≤ 256 → s.period ≠ 0 → q < 0 ∨ 2 ^ 63 - 1 < q →
      exec .totpgen s = .next (s.faultedWith 6)) ∧
    (s.alg ≠ 3 → s.secretLen.toNat ≤ 256 → s.period ≠ 0 → 0 ≤ q → q ≤ 2 ^ 63 - 1 →
      s.digits.toNat = 0 ∨ 10 < s.digits.toNat → exec .totpgen s = .next (s.faultedWith 8))

/-- TOTP is HOTP of the time step (R234): a `TOTPGEN` that does not fault writes what `HOTPGEN` writes with the time
step in `CTR`, and `TCTR` beside it; and it leaves what the sequence `TSTEP`, copy of `TCTR` to `CTR`, `KEYNORM`,
`HMACCTR`, `TRUNC` leaves. The first of the two is marked as derived in R234, from rules R210 and R232. -/
def Obligations.TotpIsHotpOfTheTimeStep : Prop :=
  ∀ s t : State, exec .totpgen s = .next t → t.err = 0 →
    (t.tctr.toNat : Int) = (s.time.toInt - s.epoch.toInt).tdiv s.period.toNat ∧
    (∃ h, exec .hotpgen { s with ctr := t.tctr } = .next h ∧ h.err = 0 ∧
      t = { h with ctr := s.ctr, tctr := t.tctr }) ∧
    ∃ u a b c, exec .tstep s = .next u ∧ exec .keynorm { u with ctr := u.tctr } = .next a ∧
      exec .hmacctr a = .next b ∧ exec .trunc b = .next c ∧
      u.err = 0 ∧ a.err = 0 ∧ b.err = 0 ∧ c.err = 0 ∧ t = { c with ctr := s.ctr }

/-- `TOTPVFY` (R233). On legal operands it writes what `TOTPGEN` writes, and `MATCH = 1` exactly when the candidate
equals the HOTP string of the one time step; no error either way, no window. Where `TOTPGEN` faults, it takes the
same fault. -/
def Obligations.TotpvfyMatchesExactlyTheCode : Prop :=
  ∀ s : State,
    (∀ (a : HashAlg) (q : Nat), HashAlg.ofField s.alg = some a → s.secretLen.toNat ≤ 256 → s.period ≠ 0 →
      (q : Int) = (s.time.toInt - s.epoch.toInt).tdiv s.period.toNat → q ≤ 2 ^ 63 - 1 →
      1 ≤ s.digits.toNat → s.digits.toNat ≤ 10 →
      ∃ g t, exec .totpgen s = .next g ∧ exec .totpvfy s = .next t ∧ t = { g with matched := t.matched } ∧
        t.err = 0 ∧
        (t.matched = true ↔
          s.cand.bytes s.candLen.toNat = hotp a (s.secret.bytes s.secretLen.toNat) q s.digits.toNat)) ∧
    ∀ g, exec .totpgen s = .next g → g.err ≠ 0 → exec .totpvfy s = .next g

/-! ### Flags and the interrupt -/

/-- `KEYVALID` (R45): cleared by every host write to `SECRET`, `SECRET_LEN` or `ALG` and by no other, by `CLEAR` and
by reset; set by `KEYNORM` and the composites when they do not fault; left alone by everything else. -/
def Obligations.KeyvalidIsClearedAndSetAsListed : Prop :=
  (∀ (s : State) (r : Reg) (v : Word),
    (s.writeReg r v).keyvalid = if Reg.feedsKey r then false else s.keyvalid) ∧
  (∀ (i : Instr) (s t : State), exec i s = .next t →
    t.keyvalid =
      if i = .clear then false
      else if i ∈ [Instr.keynorm, .hotpgen, .hotpvfy, .totpgen, .totpvfy] ∧ t.err = 0 then true
      else s.keyvalid) ∧
  ∀ s : State, s.resetEngine.keyvalid = false

/-- The interrupt is the level `IE & DONE`: every completion sets `DONE`, faulting or not, of an illegal word too, and
so raises it when enabled; the Accept of a command, a host write of 1 to `STATUS` bit 1, and reset lower it
(R270). -/
def Obligations.InterruptFollowsDone : Prop :=
  (∀ s : State, s.irq = true ↔ s.ie = true ∧ s.done = true) ∧
  (∀ s : State, s.busy = true → ∃ t, s.engineTurn = .next t ∧ t.done = true ∧ t.ie = s.ie ∧ t.irq = s.ie) ∧
  (∀ (i : Instr) (s t : State), exec i s = .next t → t.done = true ∧ t.irq = s.ie) ∧
  (∀ (s : State) (w : Word), (s.writeReg .cmd w).irq = false) ∧
  (∀ (s : State) (v : Word), v.getLsbD 1 = true → (s.writeReg .status v).irq = false) ∧
  ∀ s : State, s.resetEngine.irq = false

/-! ### Reset -/

/-- Reset (R300): from every state, also while a command runs, every register and every byte takes its reset
value. -/
def Obligations.ResetGivesEveryPieceItsValue : Prop :=
  ∀ s t : State, t = s.resetEngine →
    (t.busy = false ∧ t.done = false ∧ t.matched = false ∧ t.keyvalid = false ∧ t.err = 0 ∧ t.ie = false ∧
      t.irq = false ∧ t.lastcmd = 0) ∧
    (t.digits = 6 ∧ t.alg = 0 ∧ t.period = 30 ∧ t.epoch = 0 ∧ t.ctr = 0 ∧ t.time = 0 ∧ t.tctr = 0) ∧
    (t.secretLen = 0 ∧ t.digestLen = 0 ∧ t.candLen = 0 ∧ t.offset = 0 ∧ t.value = 0 ∧ t.code = 0 ∧
      t.strlen = 0) ∧
    ∀ a, t.secret.read a = 0 ∧ t.keyblk.read a = 0 ∧ t.digest.read a = 0 ∧ t.codestr.read a = 0 ∧
      t.cand.read a = 0

/-- Reset during a command (R301): the command is abandoned, with none of its writes, and a transaction that was held
is performed in the reset state with the effect it has there; a held `CMD` write becomes an Accept (the turns are
the model's, notes/assumptions/2.md and 6.md). -/
def Obligations.ResetAbandonsTheCommandAndReleasesTheHold : Prop :=
  ∀ (s : State) (t : Transaction) (q : List HostOp) (sch : List Agent),
    s.transact t = none → s.hostQueue = .access t :: q → s.schedule = .host :: .reset :: .host :: sch →
    ∃ u, step s = .next { s with schedule := .reset :: .host :: sch } ∧
      step { s with schedule := .reset :: .host :: sch } = .next u ∧
      u = { State.reset with hostQueue := s.hostQueue, schedule := .host :: sch, responses := s.responses } ∧
      (∃ resp s', u.transact t = some (resp, s') ∧
        step u = .next { s' with schedule := sch, hostQueue := q, responses := resp :: s.responses }) ∧
      ∀ w, t = .write 0x004 w →
        step u = .next
          { State.reset with
            lastcmd := w, busy := true
            hostQueue := q, schedule := sch, responses := .write .okay :: s.responses }

/-! ### The whole machine -/

/-- The invariant holds after reset: canonical buffers, coherent `STATUS`, a well-formed code string, a true
`KEYVALID`, `TCTR` in range. -/
def Obligations.InvariantHoldsAtReset : Prop := State.reset.Inv

/-- Every step keeps the invariant, from every state that has it, whoever's turn it is (R23, R35, R39, R40, R44). -/
def Obligations.EveryStepKeepsTheInvariant : Prop :=
  ∀ s t : State, s.Inv → step s = .next t → t.Inv

/-- Every step keeps the byte buffers canonical and within their sizes, with no other hypothesis. -/
def Obligations.EveryStepKeepsBuffersCanonical : Prop :=
  ∀ s t : State, s.BuffersCanonical → step s = .next t → t.BuffersCanonical

/-- The secret cannot be read back: two states that differ only in `SECRET` and `KEYBLK` answer every transaction
alike, hold the same ones, show the same interrupt, and still differ only there afterwards (R43, R44, R81). -/
def Obligations.SecretIsNotReadable : Prop :=
  ∀ (s s' : State) (t : Transaction), s.sameButSecret s' →
    s.irq = s'.irq ∧
    match s.transact t, s'.transact t with
    | none, none => True
    | some (r, u), some (r', u') => r = r' ∧ u.sameButSecret u'
    | _, _ => False

/-- Results do not depend on `LATENCY`: of a host that never touches `STATUS`, with no reset, every order of turns
that finishes leaves the same state and gives the host the same responses (R310, R305; the turns are the model's,
notes/assumptions/2.md, and entry 14 says why `STATUS` is left out). -/
def Obligations.FinishedRunsDoNotDependOnLatency : Prop :=
  ∀ (s₁ s₂ t₁ t₂ : State) (n₁ n₂ : Nat), s₁.sameButSchedule s₂ →
    Agent.reset ∉ s₁.schedule → Agent.reset ∉ s₂.schedule →
    (∀ op ∈ s₁.hostQueue, HostOp.avoidsStatus op = true) →
    Host.Core.run Sys2Proof.core n₁ s₁ = .next t₁ → t₁.finished = true →
    Host.Core.run Sys2Proof.core n₂ s₂ = .next t₂ → t₂.finished = true →
    t₁.sameButSchedule t₂

/-- Nothing hangs: once no more turns are laid down, every pending operation is performed and every command
completes within two steps per operation and one more (R53, R74, R310; that order of turns is the model's,
notes/assumptions/2.md). -/
def Obligations.PendingOperationsFinish : Prop :=
  ∀ (s : State) (n : Nat), s.schedule = [] → 2 * s.hostQueue.length + 1 ≤ n →
    ∃ t, Host.Core.run Sys2Proof.core n s = .next t ∧ t.finished = true

/-- `LOADSECRET` (R121): performed by an idle engine, its transactions leave exactly the given bytes as the secret,
`KEYVALID` cleared, and every other register as it was. The pending operations are the model's
(notes/assumptions/1.md), and so is the order of turns: the schedule is empty, so this speaks of the default order
only (notes/assumptions/2.md). -/
def Obligations.LoadsecretLoadsTheSecret : Prop :=
  ∀ (s : State) (bs : Bytes), s.busy = false → s.schedule = [] →
    s.hostQueue = ScriptLine.ops (.loadSecret bs) → (ScriptLine.loadSecret bs).wellFormed = true →
    ∃ t, Host.Core.run Sys2Proof.core ((bs.length + 3) / 4 + 1) s = .next t ∧
      t.secretLen.toNat = bs.length ∧ t.secret.bytes bs.length = bs ∧ t.keyvalid = false ∧
      t = { s with
            secret := t.secret, secretLen := t.secretLen, keyvalid := false, hostQueue := []
            responses := t.responses }

/-! ### Host writes, field by field -/

/-- Writes, field by field at their offsets (R73). A write that is not held answers `OKAY` and sets exactly the bits
that rule R73 lists for the offset: the rest of the state is as it was. While a command runs that holds of `ID`,
`STATUS`, `CTRL` and `LASTCMD` (R74), where a write to `STATUS` changes nothing as `DONE` is 0 (R309 (d)); else of
every mapped offset. -/
def Obligations.WritesSetExactlyTheListedField : Prop :=
  ∀ (s : State) (v : Word),
    (s.answersWrite 0x000 v s ∧
      (v.getLsbD 1 = true → s.answersWrite 0x008 v { s with done := false }) ∧
      (v.getLsbD 1 = false → s.answersWrite 0x008 v s) ∧
      (s.busy = true → s.done = false → s.answersWrite 0x008 v s) ∧
      s.answersWrite 0x00C v { s with ie := v.getLsbD 0 } ∧ s.answersWrite 0x010 v s) ∧
    (s.busy = false →
      (s.answersWrite 0x004 v { s with lastcmd := v, busy := true, done := false, err := 0, matched := false } ∧
        s.answersWrite 0x014 v { s with digits := BitVec.ofNat 8 v.toNat } ∧
        s.answersWrite 0x018 v { s with alg := BitVec.ofNat 2 v.toNat, keyvalid := false } ∧
        s.answersWrite 0x01C v { s with period := v }) ∧
      (s.answersWrite 0x020 v { s with ctr := BitVec.ofNat 64 (s.ctr.toNat / 2 ^ 32 * 2 ^ 32 + v.toNat) } ∧
        s.answersWrite 0x024 v { s with ctr := BitVec.ofNat 64 (v.toNat * 2 ^ 32 + s.ctr.toNat % 2 ^ 32) } ∧
        s.answersWrite 0x028 v { s with time := BitVec.ofNat 64 (s.time.toNat / 2 ^ 32 * 2 ^ 32 + v.toNat) } ∧
        s.answersWrite 0x02C v { s with time := BitVec.ofNat 64 (v.toNat * 2 ^ 32 + s.time.toNat % 2 ^ 32) } ∧
        s.answersWrite 0x030 v { s with epoch := BitVec.ofNat 64 (s.epoch.toNat / 2 ^ 32 * 2 ^ 32 + v.toNat) } ∧
        s.answersWrite 0x034 v { s with epoch := BitVec.ofNat 64 (v.toNat * 2 ^ 32 + s.epoch.toNat % 2 ^ 32) } ∧
        s.answersWrite 0x038 v s ∧ s.answersWrite 0x03C v s) ∧
      (s.answersWrite 0x040 v { s with secretLen := BitVec.ofNat 16 v.toNat, keyvalid := false } ∧
        s.answersWrite 0x044 v { s with digestLen := BitVec.ofNat 8 v.toNat } ∧
        s.answersWrite 0x048 v s ∧ s.answersWrite 0x04C v { s with value := BitVec.ofNat 31 v.toNat } ∧
        s.answersWrite 0x050 v { s with code := v } ∧ s.answersWrite 0x054 v s ∧
        s.answersWrite 0x058 v s ∧ s.answersWrite 0x05C v s ∧ s.answersWrite 0x060 v s ∧
        s.answersWrite 0x064 v { s with candLen := BitVec.ofNat 8 v.toNat }) ∧
      (∀ k, k < 4 → ∃ m : Memory, m.hasLanes s.cand k v ∧ s.answersWrite (0x068 + 4 * k) v { s with cand := m }) ∧
      (∀ k, k < 16 → ∃ m : Memory, m.hasLanes s.digest k v ∧
        s.answersWrite (0x080 + 4 * k) v { s with digest := m }) ∧
      ∀ k, k < 64 → ∃ m : Memory, m.hasLanes s.secret k v ∧
        s.answersWrite (0x100 + 4 * k) v { s with secret := m, keyvalid := false })
end

