-- ==== Sys2Proof/Laws/Bytes.lean ====
section
/-! SUPPORT. Small lemmas of byte strings. -/

namespace Sys2Proof.Machine

@[simp] theorem zeros_length (n : Nat) : (zeros n).length = n := by simp [zeros]

@[simp] theorem byteAt_nil (i : Nat) : byteAt [] i = 0 := by simp [byteAt]

@[simp] theorem byteAt_zeros (n i : Nat) : byteAt (zeros n) i = 0 := by
  simp only [byteAt, zeros, List.getD_eq_getElem?_getD, List.getElem?_replicate]
  split <;> rfl

theorem byteAt_of_lt {b : Bytes} {i : Nat} (h : i < b.length) : byteAt b i = b[i] := by simp [byteAt, h]

theorem byteAt_of_le {b : Bytes} {i : Nat} (h : b.length ≤ i) : byteAt b i = 0 := by simp [byteAt, h]

theorem byteAt_append (a b : Bytes) (i : Nat) :
    byteAt (a ++ b) i = if i < a.length then byteAt a i else byteAt b (i - a.length) := by
  simp only [byteAt, List.getD_eq_getElem?_getD, List.getElem?_append]
  split <;> rfl

/-- Bytes followed by zeros read as the bytes, then as zero. -/
@[simp] theorem byteAt_append_zeros (b : Bytes) (n i : Nat) : byteAt (b ++ zeros n) i = byteAt b i := by
  rw [byteAt_append]
  split
  · rfl
  · next h => rw [byteAt_zeros, byteAt_of_le (by omega)]

theorem bytes_ext {a b : Bytes} (hl : a.length = b.length) (h : ∀ i, i < a.length → byteAt a i = byteAt b i) :
    a = b := by
  refine List.ext_getElem hl fun i h1 h2 => ?_
  have := h i h1
  rwa [byteAt_of_lt h1, byteAt_of_lt h2] at this

@[simp] theorem beBytes_length (n v : Nat) : (beBytes n v).length = n := by simp [beBytes]

theorem byteAt_beBytes {n i : Nat} (v : Nat) (h : i < n) :
    byteAt (beBytes n v) i = BitVec.ofNat 8 (v >>> (8 * (n - 1 - i))) := by simp [byteAt, beBytes, h]

@[simp] theorem be64_length (c : Nat) : (be64 c).length = 8 := beBytes_length 8 c

/-- The counter bytes of a 64-bit register are its eight bytes, the most significant first (R110). -/
theorem be64_toNat (c : DWord) : be64 c.toNat = (List.range 8).map fun i => c.extractLsb' (8 * (7 - i)) 8 := by
  simp only [be64, beBytes]
  refine List.map_congr_left fun i _ => ?_
  apply BitVec.eq_of_toNat_eq
  simp

@[simp] theorem chunks_length (k n : Nat) (bs : Bytes) : (chunks k n bs).length = k := by
  induction k generalizing bs with
  | zero => rfl
  | succ k ih => simp [chunks, ih]

end Sys2Proof.Machine
end

