-- ==== Sys2Proof/Laws/Memory.lean ====
section
/-! SUPPORT. The laws of byte storage: reading after a write, and that every operation keeps the canonical
form. The read laws need no hypothesis on the memory. -/

namespace Sys2Proof.Machine

/-! ### Reading -/

@[simp] theorem Memory.read_zero (a : Nat) : Memory.zero.read a = 0 := rfl

@[simp] theorem Memory.read_nil (a : Nat) : Memory.read [] a = 0 := rfl

theorem Memory.read_cons (c : Host.Cell) (m : Memory) (a : Nat) :
    Memory.read (c :: m) a = if c.1 = a then c.2 else Memory.read m a := rfl

theorem Memory.read_of_not_mem {m : Memory} {a : Nat} (h : ∀ c ∈ m, c.1 ≠ a) : m.read a = 0 := by
  induction m with
  | nil => rfl
  | cons c m ih =>
    rw [Memory.read_cons, if_neg (h c (by simp)), ih fun d hd => h d (by simp [hd])]

theorem Memory.read_insertCell (c : Host.Cell) (m : Memory) (a : Nat) (h : ∀ d ∈ m, d.1 ≠ c.1) :
    Memory.read (Memory.insertCell c m) a = if c.1 = a then c.2 else Memory.read m a := by
  induction m with
  | nil => rfl
  | cons d m ih =>
    unfold Memory.insertCell
    split
    · rfl
    · rw [Memory.read_cons, ih fun e he => h e (by simp [he]), Memory.read_cons]
      have hd : d.1 ≠ c.1 := h d (by simp)
      by_cases h1 : d.1 = a
      · have : ¬ c.1 = a := fun e => hd (h1.trans e.symm)
        simp [h1, this]
      · simp [h1]

theorem Memory.read_filter_ne (m : Memory) {a b : Nat} (h : a ≠ b) :
    Memory.read (m.filter fun c => c.1 != a) b = m.read b := by
  induction m with
  | nil => rfl
  | cons c m ih =>
    by_cases hc : c.1 = a
    · have : ¬ c.1 = b := fun e => h (hc.symm.trans e)
      simp [hc, Memory.read_cons, ih]
      intro e; exact absurd e h
    · simp [hc, Memory.read_cons, ih]

/-- Reading back the byte just written. -/
@[simp] theorem Memory.read_write_same (m : Memory) (a : Nat) (v : Byte) : (m.write a v).read a = v := by
  unfold Memory.write
  split
  · next h => rw [h]; exact Memory.read_of_not_mem (by simp)
  · rw [Memory.read_insertCell _ _ _ (by simp)]; simp

/-- A write leaves every other byte. -/
theorem Memory.read_write_other (m : Memory) {a b : Nat} (v : Byte) (h : a ≠ b) :
    (m.write a v).read b = m.read b := by
  unfold Memory.write
  split
  · exact Memory.read_filter_ne m h
  · rw [Memory.read_insertCell _ _ _ (by simp)]; simp [h, Memory.read_filter_ne m h]

/-- One equation for a read after a write. -/
theorem Memory.read_write (m : Memory) (a b : Nat) (v : Byte) :
    (m.write a v).read b = if b = a then v else m.read b := by
  by_cases h : b = a
  · simp [h]
  · simp [h, Memory.read_write_other m v (Ne.symm h)]

theorem Memory.read_ofBytesFrom (bs : Bytes) (base a : Nat) :
    (Memory.ofBytesFrom base bs).read a = if base ≤ a then byteAt bs (a - base) else 0 := by
  induction bs generalizing base with
  | nil => simp [Memory.ofBytesFrom, byteAt]
  | cons b bs ih =>
    have key : (if base ≤ a then byteAt (b :: bs) (a - base) else 0) =
        if base = a then b else if base + 1 ≤ a then byteAt bs (a - (base + 1)) else 0 := by
      by_cases h1 : base = a
      · simp [h1, byteAt]
      · by_cases h2 : base + 1 ≤ a
        · have : a - base = (a - (base + 1)) + 1 := by omega
          simp [h1, h2, show base ≤ a by omega, this, byteAt]
        · simp [h1, h2, show ¬ base ≤ a by omega]
    rw [key]
    unfold Memory.ofBytesFrom
    split
    · next h =>
      rw [ih]
      by_cases h1 : base = a
      · simp [h1, h, Memory.unlisted]
      · simp [h1]
    · rw [Memory.read_cons, ih]

/-- Byte `a` of a buffer laid down whole is byte `a` of the string. -/
@[simp] theorem Memory.read_ofBytes (bs : Bytes) (a : Nat) : (Memory.ofBytes bs).read a = byteAt bs a := by
  simp [Memory.ofBytes, Memory.read_ofBytesFrom]

@[simp] theorem Memory.bytes_length (m : Memory) (n : Nat) : (m.bytes n).length = n := by simp [Memory.bytes]

@[simp] theorem Memory.bytes_getElem (m : Memory) (n i : Nat) (h : i < (m.bytes n).length) :
    (m.bytes n)[i] = m.read i := by simp [Memory.bytes]

theorem byteAt_bytes (m : Memory) {n i : Nat} (h : i < n) : byteAt (m.bytes n) i = m.read i := by
  simp [byteAt, Memory.bytes, h]

/-- A slice depends only on the bytes read. -/
theorem Memory.bytes_congr {m m' : Memory} {n : Nat} (h : ∀ i, i < n → m.read i = m'.read i) :
    m.bytes n = m'.bytes n := by
  apply List.map_congr_left
  intro i hi
  exact h i (by simpa using hi)

/-- The slice of a buffer that starts with `bs` is `bs`. -/
theorem Memory.bytes_ofBytes_append (bs rest : Bytes) : (Memory.ofBytes (bs ++ rest)).bytes bs.length = bs := by
  apply List.ext_getElem
  · simp
  · intro i h1 h2
    simp [byteAt, List.getElem?_append, h2]

theorem Memory.bytes_ofBytes (bs : Bytes) : (Memory.ofBytes bs).bytes bs.length = bs := by
  simpa using Memory.bytes_ofBytes_append bs []

/-! ### Words of a buffer -/

/-- `SetWord` changes the four bytes of word `k` and no other. -/
theorem Memory.read_setWord (m : Memory) (k a : Nat) (v : Word) :
    (m.setWord k v).read a = if a / 4 = k then lane v (a % 4) else m.read a := by
  simp only [Memory.setWord, Memory.read_write]
  by_cases h : a / 4 = k
  · have h4 : a % 4 = 0 ∨ a % 4 = 1 ∨ a % 4 = 2 ∨ a % 4 = 3 := by omega
    rcases h4 with h4 | h4 | h4 | h4 <;> simp only [h, h4, if_true] <;>
      (repeat' split) <;> first | rfl | omega
  · simp only [h, if_false]
    (repeat' split) <;> first | rfl | omega

theorem packWord_lanes (v : Word) : packWord (lane v 0) (lane v 1) (lane v 2) (lane v 3) = v := by
  apply BitVec.eq_of_getLsbD_eq
  intro i hi
  simp only [packWord, lane, BitVec.getLsbD_append, BitVec.getLsbD_extractLsb']
  have bit : ∀ a b, b < 8 → a + b = i → (decide (b < 8) && v.getLsbD (a + b)) = v.getLsbD i := by
    intro a b hb hab
    simp [hb, hab]
  split
  · exact bit (8 * 0) i (by omega) (by omega)
  · split
    · exact bit (8 * 1) (i - 8) (by omega) (by omega)
    · split
      · exact bit (8 * 2) (i - 8 - 8) (by omega) (by omega)
      · exact bit (8 * 3) (i - 8 - 8 - 8) (by omega) (by omega)

/-- A word read after the same word was set. -/
@[simp] theorem Memory.word_setWord_same (m : Memory) (k : Nat) (v : Word) : (m.setWord k v).word k = v := by
  have h : ∀ j, j < 4 → (m.setWord k v).read (4 * k + j) = lane v j := by
    intro j hj
    rw [Memory.read_setWord, if_pos (by omega)]
    congr 1; omega
  have h0 := h 0 (by omega)
  rw [Nat.add_zero] at h0
  rw [Memory.word, h0, h 1 (by omega), h 2 (by omega), h 3 (by omega), packWord_lanes]

/-- A word read after another word was set. -/
theorem Memory.word_setWord_other (m : Memory) {k l : Nat} (v : Word) (h : l ≠ k) :
    (m.setWord k v).word l = m.word l := by
  have hr : ∀ j, j < 4 → (m.setWord k v).read (4 * l + j) = m.read (4 * l + j) := by
    intro j hj
    rw [Memory.read_setWord, if_neg (by omega)]
  have h0 := hr 0 (by omega)
  rw [Nat.add_zero] at h0
  rw [Memory.word, h0, hr 1 (by omega), hr 2 (by omega), hr 3 (by omega), Memory.word]

/-! ### The canonical form -/

theorem Memory.wf_zero (size : Nat) : Memory.zero.wf size :=
  ⟨List.Pairwise.nil, fun _ h => absurd h List.not_mem_nil⟩

theorem Memory.wf_filter {size : Nat} {m : Memory} (h : m.wf size) (p : Host.Cell → Bool) :
    Memory.wf size (m.filter p) :=
  ⟨h.1.filter p, fun c hc => h.2 c (List.mem_filter.1 hc).1⟩

theorem Memory.mem_insertCell {c d : Host.Cell} {m : Memory} (h : d ∈ Memory.insertCell c m) : d = c ∨ d ∈ m := by
  induction m with
  | nil => simpa [Memory.insertCell] using h
  | cons e m ih =>
    unfold Memory.insertCell at h
    split at h
    · simpa using h
    · rcases List.mem_cons.1 h with rfl | h
      · simp
      · rcases ih h with h | h <;> simp [h]

theorem Memory.wf_insertCell {size : Nat} {c : Host.Cell} {m : Memory} (h : m.wf size)
    (hc : c.1 < size ∧ c.2 ≠ Memory.unlisted) (hne : ∀ d ∈ m, d.1 ≠ c.1) :
    Memory.wf size (Memory.insertCell c m) := by
  refine ⟨?_, fun d hd => ?_⟩
  · induction m with
    | nil => simp [Memory.insertCell]
    | cons e m ih =>
      have he := List.pairwise_cons.1 h.1
      unfold Memory.insertCell
      split
      · next hlt =>
        refine List.pairwise_cons.2 ⟨fun d hd => ?_, h.1⟩
        rcases List.mem_cons.1 hd with rfl | hd
        · exact hlt
        · exact Nat.lt_trans hlt (he.1 d hd)
      · next hlt =>
        have hec : e.1 < c.1 := by
          have := hne e (by simp)
          omega
        refine List.pairwise_cons.2 ⟨fun d hd => ?_, ih ⟨he.2, fun d hd => h.2 d (by simp [hd])⟩ fun d hd =>
          hne d (by simp [hd])⟩
        rcases Memory.mem_insertCell hd with rfl | hd
        · exact hec
        · exact he.1 d hd
  · rcases Memory.mem_insertCell hd with rfl | hd
    · exact hc
    · exact h.2 d hd

/-- A write inside a buffer keeps the canonical form. -/
theorem Memory.wf_write {size : Nat} {m : Memory} (h : m.wf size) {a : Nat} (ha : a < size) (v : Byte) :
    Memory.wf size (m.write a v) := by
  unfold Memory.write
  split
  · exact Memory.wf_filter h _
  · next hv => exact Memory.wf_insertCell (Memory.wf_filter h _) ⟨ha, hv⟩ (by simp)

/-- Setting a word inside a buffer keeps the canonical form. -/
theorem Memory.wf_setWord {size : Nat} {m : Memory} (h : m.wf size) {k : Nat} (hk : 4 * k + 3 < size) (v : Word) :
    Memory.wf size (m.setWord k v) :=
  Memory.wf_write (Memory.wf_write (Memory.wf_write (Memory.wf_write h (by omega) _) (by omega) _) (by omega) _)
    (by omega) _

theorem Memory.wf_ofBytesFrom (bs : Bytes) {base size : Nat} (h : base + bs.length ≤ size) :
    Memory.wf size (Memory.ofBytesFrom base bs) ∧ ∀ c ∈ Memory.ofBytesFrom base bs, base ≤ c.1 := by
  induction bs generalizing base with
  | nil => exact ⟨Memory.wf_zero size, fun _ h => absurd h List.not_mem_nil⟩
  | cons b bs ih =>
    have ih' := @ih (base + 1) (by simp at h; omega)
    unfold Memory.ofBytesFrom
    split
    · exact ⟨ih'.1, fun c hc => by have := ih'.2 c hc; omega⟩
    · next hb =>
      refine ⟨⟨List.pairwise_cons.2 ⟨fun c hc => ?_, ih'.1.1⟩, fun c hc => ?_⟩, fun c hc => ?_⟩
      · have := ih'.2 c hc
        simp only; omega
      · rcases List.mem_cons.1 hc with rfl | hc
        · exact ⟨by simp at h ⊢; omega, hb⟩
        · exact ih'.1.2 c hc
      · rcases List.mem_cons.1 hc with rfl | hc
        · exact Nat.le_refl _
        · have := ih'.2 c hc; omega

/-- A buffer laid down whole is canonical when the string fits. -/
theorem Memory.wf_ofBytes (bs : Bytes) {size : Nat} (h : bs.length ≤ size) : Memory.wf size (Memory.ofBytes bs) :=
  (Memory.wf_ofBytesFrom bs (by simpa using h)).1

/-- Equal contents are equal data: canonical buffers that read alike are the same. -/
theorem Memory.eq_of_read_eq {size : Nat} {m m' : Memory} (h : m.wf size) (h' : m'.wf size)
    (hr : ∀ a, m.read a = m'.read a) : m = m' := by
  induction m generalizing m' with
  | nil =>
    cases m' with
    | nil => rfl
    | cons d m' =>
      have := hr d.1
      simp [Memory.read_cons] at this
      exact absurd this.symm (h'.2 d (by simp)).2
  | cons c m ih =>
    cases m' with
    | nil =>
      have := hr c.1
      simp [Memory.read_cons] at this
      exact absurd this (h.2 c (by simp)).2
    | cons d m' =>
      have hc := List.pairwise_cons.1 h.1
      have hd := List.pairwise_cons.1 h'.1
      have nz : ∀ {x : Host.Cell} {l : Memory} {a : Nat}, (∀ e ∈ l, x.1 < e.1) → a ≤ x.1 → Memory.read l a = 0 := by
        intro x l a hx ha
        exact Memory.read_of_not_mem fun e he => by have := hx e he; omega
      have h1 : c.1 = d.1 := by
        rcases Nat.lt_trichotomy c.1 d.1 with hlt | heq | hlt
        · have := hr c.1
          rw [Memory.read_cons, if_pos rfl, Memory.read_cons, if_neg (by omega), nz hd.1 (by omega)] at this
          exact absurd this (h.2 c (by simp)).2
        · exact heq
        · have := hr d.1
          rw [Memory.read_cons, if_neg (by omega), nz hc.1 (by omega), Memory.read_cons, if_pos rfl] at this
          exact absurd this.symm (h'.2 d (by simp)).2
      have h2 : c.2 = d.2 := by
        have := hr c.1
        rwa [Memory.read_cons, if_pos rfl, Memory.read_cons, if_pos h1.symm] at this
      have h3 : m = m' := by
        refine ih ⟨hc.2, fun e he => h.2 e (by simp [he])⟩ ⟨hd.2, fun e he => h'.2 e (by simp [he])⟩ fun a => ?_
        have := hr a
        rw [Memory.read_cons, Memory.read_cons] at this
        by_cases ha : c.1 = a
        · rw [nz hc.1 (by omega), nz hd.1 (by omega)]
        · rwa [if_neg ha, if_neg (by omega)] at this
      rw [h3, Prod.ext h1 h2]

end Sys2Proof.Machine
end

