-- ==== Sys2Proof/Laws/Hash.lean ====
section
/-! SUPPORT. The lengths of digests and padded messages (spec/40_hash_functions.md rules R130, R131, R135). -/

namespace Sys2Proof.Machine

theorem sha1_length (m : Bytes) : (sha1 m).length = 20 := by simp [sha1]

theorem Sha2Words.output_length {w : Nat} (n : Nat) (h : Sha2Words w) : (h.output n).length = 8 * n := by
  simp [Sha2Words.output]; omega

theorem sha256_length (m : Bytes) : (sha256 m).length = 32 := Sha2Words.output_length 4 _

theorem sha512_length (m : Bytes) : (sha512 m).length = 64 := Sha2Words.output_length 8 _

/-- A digest has `L(alg)` bytes (R130). -/
@[simp] theorem hash_length (a : HashAlg) (m : Bytes) : (hash a m).length = a.digestLen := by
  cases a
  · exact sha1_length m
  · exact sha256_length m
  · exact sha512_length m

/-- An HMAC has `L(alg)` bytes (R135). -/
@[simp] theorem hmac_length (a : HashAlg) (key m : Bytes) : (hmac a key m).length = a.digestLen := by simp [hmac]

theorem HashAlg.digestLen_le_blockLen (a : HashAlg) : a.digestLen ≤ a.blockLen := by cases a <;> decide

theorem HashAlg.blockLen_le (a : HashAlg) : a.blockLen ≤ 128 := by cases a <;> decide

theorem HashAlg.digestLen_le (a : HashAlg) : a.digestLen ≤ 64 := by cases a <;> decide

theorem HashAlg.digestLen_ge (a : HashAlg) : 20 ≤ a.digestLen := by cases a <;> decide

end Sys2Proof.Machine
end

