-- ==== Sys2Proof/Laws/Otp.lean ====
section
/-! SUPPORT. One spec lemma per pure function of the pipeline (spec/41_truncation.md, spec/42_key_hmac.md,
spec/44_totp.md). -/

namespace Sys2Proof.Machine

/-! ### Dynamic truncation -/

/-- The offset is the last byte modulo 16 (R160). -/
theorem dtOffset_eq (d : Bytes) : dtOffset d = (byteAt d (d.length - 1)).toNat % 16 := by
  show (byteAt d (d.length - 1) &&& 0x0F).toNat = _
  rw [BitVec.toNat_and]
  exact Nat.and_two_pow_sub_one_eq_mod _ 4

theorem dtOffset_lt (d : Bytes) : dtOffset d < 16 := by
  rw [dtOffset_eq]; exact Nat.mod_lt _ (by decide)

theorem or_shift (a b n : Nat) (h : b < 2 ^ n) : a <<< n ||| b = a * 2 ^ n + b := by
  rw [← Nat.shiftLeft_add_eq_or_of_lt h, Nat.shiftLeft_eq]

/-- The value as a sum of the four bytes, the first without its top bit (R111). -/
theorem dtValueAt_sum (d : Bytes) (o : Nat) :
    dtValueAt d o = (byteAt d o).toNat % 128 * 2 ^ 24 + (byteAt d (o + 1)).toNat * 2 ^ 16 +
      (byteAt d (o + 2)).toNat * 2 ^ 8 + (byteAt d (o + 3)).toNat := by
  have hm : (byteAt d o &&& 0x7F).toNat = (byteAt d o).toNat % 128 := by
    rw [BitVec.toNat_and]
    exact Nat.and_two_pow_sub_one_eq_mod _ 7
  have h1 := (byteAt d (o + 1)).isLt
  have h2 := (byteAt d (o + 2)).isLt
  have h3 := (byteAt d (o + 3)).isLt
  have e1 := or_shift ((byteAt d o).toNat % 128) ((byteAt d (o + 1)).toNat <<< 16) 24
    (by rw [Nat.shiftLeft_eq]; omega)
  have e2 := or_shift ((byteAt d o).toNat % 128 * 2 ^ 8 + (byteAt d (o + 1)).toNat)
    ((byteAt d (o + 2)).toNat <<< 8) 16 (by rw [Nat.shiftLeft_eq]; omega)
  have e3 := or_shift (((byteAt d o).toNat % 128 * 2 ^ 8 + (byteAt d (o + 1)).toNat) * 2 ^ 8 +
    (byteAt d (o + 2)).toNat) (byteAt d (o + 3)).toNat 8 h3
  rw [Nat.shiftLeft_eq (byteAt d (o + 1)).toNat] at e1
  rw [Nat.shiftLeft_eq (byteAt d (o + 2)).toNat, Nat.shiftLeft_eq _ 16] at e2
  rw [Nat.shiftLeft_eq _ 8] at e3
  rw [dtValueAt, hm, Nat.shiftLeft_eq (byteAt d (o + 1)).toNat, e1, Nat.shiftLeft_eq (byteAt d (o + 2)).toNat,
    show (byteAt d o).toNat % 128 * 2 ^ 24 + (byteAt d (o + 1)).toNat * 2 ^ 16 =
      ((byteAt d o).toNat % 128 * 2 ^ 8 + (byteAt d (o + 1)).toNat) * 2 ^ 16 by omega, e2,
    show ((byteAt d o).toNat % 128 * 2 ^ 8 + (byteAt d (o + 1)).toNat) * 2 ^ 16 + (byteAt d (o + 2)).toNat * 2 ^ 8 =
      (((byteAt d o).toNat % 128 * 2 ^ 8 + (byteAt d (o + 1)).toNat) * 2 ^ 8 + (byteAt d (o + 2)).toNat) * 2 ^ 8
      by omega, e3]

theorem dtValueAt_lt (d : Bytes) (o : Nat) : dtValueAt d o < 2 ^ 31 := by
  rw [dtValueAt_sum]
  have h1 := (byteAt d (o + 1)).isLt
  have h2 := (byteAt d (o + 2)).isLt
  have h3 := (byteAt d (o + 3)).isLt
  omega

/-- The truncated value has 31 bits (R160). -/
theorem dtValue_lt (d : Bytes) : dtValue d < 2 ^ 31 := dtValueAt_lt d _

/-- An HMAC is always in the domain of the truncation (R161, R209). -/
theorem dtDefined_hmac (a : HashAlg) (key m : Bytes) : dtDefined (hmac a key m) = true := by
  have h1 := dtOffset_lt (hmac a key m)
  have h2 := a.digestLen_ge
  simp only [dtDefined, hmac_length, Bool.and_eq_true, decide_eq_true_eq]
  omega

/-! ### Reduction and rendering -/

theorem reduceCode_lt (v n : Nat) : reduceCode v n < 10 ^ n := Nat.mod_lt _ (by positivity)

theorem reduceCode_le (v n : Nat) : reduceCode v n ≤ v := Nat.mod_le _ _

/-- The reduced code of a truncated value fits `CODE` (R163). -/
theorem reduceCode_dtValue_lt (d : Bytes) (n : Nat) : reduceCode (dtValue d) n < 2 ^ 31 :=
  Nat.lt_of_le_of_lt (reduceCode_le _ _) (dtValue_lt d)

@[simp] theorem dec_length (code n : Nat) : (dec code n).length = n := by simp [dec]

theorem byteAt_dec (code : Nat) {n i : Nat} (h : i < n) :
    byteAt (dec code n) i = BitVec.ofNat 8 (0x30 + code / 10 ^ (n - 1 - i) % 10) := by simp [byteAt, dec, h]

/-- A character of a code string is `0x30` plus a decimal digit (R113). -/
theorem byteAt_dec_toNat (code : Nat) {n i : Nat} (h : i < n) :
    (byteAt (dec code n) i).toNat = 0x30 + code / 10 ^ (n - 1 - i) % 10 := by
  rw [byteAt_dec code h, BitVec.toNat_ofNat]
  have : code / 10 ^ (n - 1 - i) % 10 < 10 := Nat.mod_lt _ (by decide)
  omega

/-! ### Normalization and the time step -/

/-- A normalized key is exactly one block long (R190). -/
@[simp] theorem normKey_length (a : HashAlg) (s : Bytes) : (normKey a s).length = a.blockLen := by
  have := a.digestLen_le_blockLen
  unfold normKey
  split <;> simp <;> omega

/-- A secret no longer than the block is copied and padded (R190). -/
theorem byteAt_normKey_short (a : HashAlg) {s : Bytes} (h : s.length ≤ a.blockLen) (i : Nat) :
    byteAt (normKey a s) i = byteAt s i := by
  simp [normKey, show ¬ a.blockLen < s.length by omega]

/-- A longer secret is replaced by its hash, then padded (R190). -/
theorem byteAt_normKey_long (a : HashAlg) {s : Bytes} (h : a.blockLen < s.length) (i : Nat) :
    byteAt (normKey a s) i = byteAt (hash a s) i := by
  simp [normKey, h]

/-- The rule's quotient is Lean's division truncated toward zero (R7). -/
theorem truncDiv_eq_tdiv (n d : Int) : truncDiv n d = n.tdiv d := by
  have hs : ∀ m k : Nat, (m : Int).sign * (k : Int).sign * ((m / k : Nat) : Int) = ((m / k : Nat) : Int) := by
    intro m k
    rcases Nat.eq_zero_or_pos m with rfl | hm
    · simp
    rcases Nat.eq_zero_or_pos k with rfl | hk
    · simp
    rw [Int.sign_eq_one_of_pos (by omega), Int.sign_eq_one_of_pos (by omega)]; simp
  obtain ⟨m, rfl | rfl⟩ := n.eq_nat_or_neg <;> obtain ⟨k, rfl | rfl⟩ := d.eq_nat_or_neg <;>
    simp only [truncDiv, Int.sign_neg, Int.natAbs_neg, Int.natAbs_natCast, Int.neg_tdiv, Int.tdiv_neg,
      Int.neg_mul, Int.mul_neg, Int.neg_neg, hs] <;> simp

end Sys2Proof.Machine
end

