-- ==== Sys2Proof/Laws/State.lean ====
section
/-! SUPPORT. One lemma per field per update of the state, so that no later proof unfolds a record update. -/

namespace Sys2Proof.Machine

variable (s : State)

/-! ### accept: Accept (R52) -/

@[simp] theorem State.accept_busy (w : Word) : (s.accept w).busy = true := rfl
@[simp] theorem State.accept_done (w : Word) : (s.accept w).done = false := rfl
@[simp] theorem State.accept_matched (w : Word) : (s.accept w).matched = false := rfl
@[simp] theorem State.accept_keyvalid (w : Word) : (s.accept w).keyvalid = s.keyvalid := rfl
@[simp] theorem State.accept_err (w : Word) : (s.accept w).err = 0 := rfl
@[simp] theorem State.accept_ie (w : Word) : (s.accept w).ie = s.ie := rfl
@[simp] theorem State.accept_lastcmd (w : Word) : (s.accept w).lastcmd = w := rfl
@[simp] theorem State.accept_digits (w : Word) : (s.accept w).digits = s.digits := rfl
@[simp] theorem State.accept_alg (w : Word) : (s.accept w).alg = s.alg := rfl
@[simp] theorem State.accept_period (w : Word) : (s.accept w).period = s.period := rfl
@[simp] theorem State.accept_epoch (w : Word) : (s.accept w).epoch = s.epoch := rfl
@[simp] theorem State.accept_ctr (w : Word) : (s.accept w).ctr = s.ctr := rfl
@[simp] theorem State.accept_time (w : Word) : (s.accept w).time = s.time := rfl
@[simp] theorem State.accept_secretLen (w : Word) : (s.accept w).secretLen = s.secretLen := rfl
@[simp] theorem State.accept_digestLen (w : Word) : (s.accept w).digestLen = s.digestLen := rfl
@[simp] theorem State.accept_candLen (w : Word) : (s.accept w).candLen = s.candLen := rfl
@[simp] theorem State.accept_tctr (w : Word) : (s.accept w).tctr = s.tctr := rfl
@[simp] theorem State.accept_offset (w : Word) : (s.accept w).offset = s.offset := rfl
@[simp] theorem State.accept_value (w : Word) : (s.accept w).value = s.value := rfl
@[simp] theorem State.accept_code (w : Word) : (s.accept w).code = s.code := rfl
@[simp] theorem State.accept_strlen (w : Word) : (s.accept w).strlen = s.strlen := rfl
@[simp] theorem State.accept_codestr (w : Word) : (s.accept w).codestr = s.codestr := rfl
@[simp] theorem State.accept_cand (w : Word) : (s.accept w).cand = s.cand := rfl
@[simp] theorem State.accept_digest (w : Word) : (s.accept w).digest = s.digest := rfl
@[simp] theorem State.accept_secret (w : Word) : (s.accept w).secret = s.secret := rfl
@[simp] theorem State.accept_keyblk (w : Word) : (s.accept w).keyblk = s.keyblk := rfl
@[simp] theorem State.accept_hostQueue (w : Word) : (s.accept w).hostQueue = s.hostQueue := rfl
@[simp] theorem State.accept_schedule (w : Word) : (s.accept w).schedule = s.schedule := rfl
@[simp] theorem State.accept_responses (w : Word) : (s.accept w).responses = s.responses := rfl

/-! ### takeFault: taking a fault (R262) -/

@[simp] theorem State.takeFault_busy (f : CommandFault) : (s.takeFault f).busy = false := rfl
@[simp] theorem State.takeFault_done (f : CommandFault) : (s.takeFault f).done = true := rfl
@[simp] theorem State.takeFault_matched (f : CommandFault) : (s.takeFault f).matched = s.matched := rfl
@[simp] theorem State.takeFault_keyvalid (f : CommandFault) : (s.takeFault f).keyvalid = s.keyvalid := rfl
@[simp] theorem State.takeFault_err (f : CommandFault) : (s.takeFault f).err = f.errCode := rfl
@[simp] theorem State.takeFault_ie (f : CommandFault) : (s.takeFault f).ie = s.ie := rfl
@[simp] theorem State.takeFault_lastcmd (f : CommandFault) : (s.takeFault f).lastcmd = s.lastcmd := rfl
@[simp] theorem State.takeFault_digits (f : CommandFault) : (s.takeFault f).digits = s.digits := rfl
@[simp] theorem State.takeFault_alg (f : CommandFault) : (s.takeFault f).alg = s.alg := rfl
@[simp] theorem State.takeFault_period (f : CommandFault) : (s.takeFault f).period = s.period := rfl
@[simp] theorem State.takeFault_epoch (f : CommandFault) : (s.takeFault f).epoch = s.epoch := rfl
@[simp] theorem State.takeFault_ctr (f : CommandFault) : (s.takeFault f).ctr = s.ctr := rfl
@[simp] theorem State.takeFault_time (f : CommandFault) : (s.takeFault f).time = s.time := rfl
@[simp] theorem State.takeFault_secretLen (f : CommandFault) : (s.takeFault f).secretLen = s.secretLen := rfl
@[simp] theorem State.takeFault_digestLen (f : CommandFault) : (s.takeFault f).digestLen = s.digestLen := rfl
@[simp] theorem State.takeFault_candLen (f : CommandFault) : (s.takeFault f).candLen = s.candLen := rfl
@[simp] theorem State.takeFault_tctr (f : CommandFault) : (s.takeFault f).tctr = s.tctr := rfl
@[simp] theorem State.takeFault_offset (f : CommandFault) : (s.takeFault f).offset = s.offset := rfl
@[simp] theorem State.takeFault_value (f : CommandFault) : (s.takeFault f).value = s.value := rfl
@[simp] theorem State.takeFault_code (f : CommandFault) : (s.takeFault f).code = s.code := rfl
@[simp] theorem State.takeFault_strlen (f : CommandFault) : (s.takeFault f).strlen = s.strlen := rfl
@[simp] theorem State.takeFault_codestr (f : CommandFault) : (s.takeFault f).codestr = s.codestr := rfl
@[simp] theorem State.takeFault_cand (f : CommandFault) : (s.takeFault f).cand = s.cand := rfl
@[simp] theorem State.takeFault_digest (f : CommandFault) : (s.takeFault f).digest = s.digest := rfl
@[simp] theorem State.takeFault_secret (f : CommandFault) : (s.takeFault f).secret = s.secret := rfl
@[simp] theorem State.takeFault_keyblk (f : CommandFault) : (s.takeFault f).keyblk = s.keyblk := rfl
@[simp] theorem State.takeFault_hostQueue (f : CommandFault) : (s.takeFault f).hostQueue = s.hostQueue := rfl
@[simp] theorem State.takeFault_schedule (f : CommandFault) : (s.takeFault f).schedule = s.schedule := rfl
@[simp] theorem State.takeFault_responses (f : CommandFault) : (s.takeFault f).responses = s.responses := rfl

/-! ### succeed: a completion without fault (R53) -/

@[simp] theorem State.succeed_busy : s.succeed.busy = false := rfl
@[simp] theorem State.succeed_done : s.succeed.done = true := rfl
@[simp] theorem State.succeed_matched : s.succeed.matched = s.matched := rfl
@[simp] theorem State.succeed_keyvalid : s.succeed.keyvalid = s.keyvalid := rfl
@[simp] theorem State.succeed_err : s.succeed.err = 0 := rfl
@[simp] theorem State.succeed_ie : s.succeed.ie = s.ie := rfl
@[simp] theorem State.succeed_lastcmd : s.succeed.lastcmd = s.lastcmd := rfl
@[simp] theorem State.succeed_digits : s.succeed.digits = s.digits := rfl
@[simp] theorem State.succeed_alg : s.succeed.alg = s.alg := rfl
@[simp] theorem State.succeed_period : s.succeed.period = s.period := rfl
@[simp] theorem State.succeed_epoch : s.succeed.epoch = s.epoch := rfl
@[simp] theorem State.succeed_ctr : s.succeed.ctr = s.ctr := rfl
@[simp] theorem State.succeed_time : s.succeed.time = s.time := rfl
@[simp] theorem State.succeed_secretLen : s.succeed.secretLen = s.secretLen := rfl
@[simp] theorem State.succeed_digestLen : s.succeed.digestLen = s.digestLen := rfl
@[simp] theorem State.succeed_candLen : s.succeed.candLen = s.candLen := rfl
@[simp] theorem State.succeed_tctr : s.succeed.tctr = s.tctr := rfl
@[simp] theorem State.succeed_offset : s.succeed.offset = s.offset := rfl
@[simp] theorem State.succeed_value : s.succeed.value = s.value := rfl
@[simp] theorem State.succeed_code : s.succeed.code = s.code := rfl
@[simp] theorem State.succeed_strlen : s.succeed.strlen = s.strlen := rfl
@[simp] theorem State.succeed_codestr : s.succeed.codestr = s.codestr := rfl
@[simp] theorem State.succeed_cand : s.succeed.cand = s.cand := rfl
@[simp] theorem State.succeed_digest : s.succeed.digest = s.digest := rfl
@[simp] theorem State.succeed_secret : s.succeed.secret = s.secret := rfl
@[simp] theorem State.succeed_keyblk : s.succeed.keyblk = s.keyblk := rfl
@[simp] theorem State.succeed_hostQueue : s.succeed.hostQueue = s.hostQueue := rfl
@[simp] theorem State.succeed_schedule : s.succeed.schedule = s.schedule := rfl
@[simp] theorem State.succeed_responses : s.succeed.responses = s.responses := rfl

/-! ### resetEngine: Reset (R300) -/

@[simp] theorem State.resetEngine_busy : s.resetEngine.busy = false := rfl
@[simp] theorem State.resetEngine_done : s.resetEngine.done = false := rfl
@[simp] theorem State.resetEngine_matched : s.resetEngine.matched = false := rfl
@[simp] theorem State.resetEngine_keyvalid : s.resetEngine.keyvalid = false := rfl
@[simp] theorem State.resetEngine_err : s.resetEngine.err = 0 := rfl
@[simp] theorem State.resetEngine_ie : s.resetEngine.ie = false := rfl
@[simp] theorem State.resetEngine_lastcmd : s.resetEngine.lastcmd = 0 := rfl
@[simp] theorem State.resetEngine_digits : s.resetEngine.digits = 6 := rfl
@[simp] theorem State.resetEngine_alg : s.resetEngine.alg = 0 := rfl
@[simp] theorem State.resetEngine_period : s.resetEngine.period = 30 := rfl
@[simp] theorem State.resetEngine_epoch : s.resetEngine.epoch = 0 := rfl
@[simp] theorem State.resetEngine_ctr : s.resetEngine.ctr = 0 := rfl
@[simp] theorem State.resetEngine_time : s.resetEngine.time = 0 := rfl
@[simp] theorem State.resetEngine_secretLen : s.resetEngine.secretLen = 0 := rfl
@[simp] theorem State.resetEngine_digestLen : s.resetEngine.digestLen = 0 := rfl
@[simp] theorem State.resetEngine_candLen : s.resetEngine.candLen = 0 := rfl
@[simp] theorem State.resetEngine_tctr : s.resetEngine.tctr = 0 := rfl
@[simp] theorem State.resetEngine_offset : s.resetEngine.offset = 0 := rfl
@[simp] theorem State.resetEngine_value : s.resetEngine.value = 0 := rfl
@[simp] theorem State.resetEngine_code : s.resetEngine.code = 0 := rfl
@[simp] theorem State.resetEngine_strlen : s.resetEngine.strlen = 0 := rfl
@[simp] theorem State.resetEngine_codestr : s.resetEngine.codestr = Memory.zero := rfl
@[simp] theorem State.resetEngine_cand : s.resetEngine.cand = Memory.zero := rfl
@[simp] theorem State.resetEngine_digest : s.resetEngine.digest = Memory.zero := rfl
@[simp] theorem State.resetEngine_secret : s.resetEngine.secret = Memory.zero := rfl
@[simp] theorem State.resetEngine_keyblk : s.resetEngine.keyblk = Memory.zero := rfl
@[simp] theorem State.resetEngine_hostQueue : s.resetEngine.hostQueue = s.hostQueue := rfl
@[simp] theorem State.resetEngine_schedule : s.resetEngine.schedule = s.schedule := rfl
@[simp] theorem State.resetEngine_responses : s.resetEngine.responses = s.responses := rfl

/-! ### clearKeyValid: clearing `KEYVALID` (R45) -/

@[simp] theorem State.clearKeyValid_busy : s.clearKeyValid.busy = s.busy := rfl
@[simp] theorem State.clearKeyValid_done : s.clearKeyValid.done = s.done := rfl
@[simp] theorem State.clearKeyValid_matched : s.clearKeyValid.matched = s.matched := rfl
@[simp] theorem State.clearKeyValid_keyvalid : s.clearKeyValid.keyvalid = false := rfl
@[simp] theorem State.clearKeyValid_err : s.clearKeyValid.err = s.err := rfl
@[simp] theorem State.clearKeyValid_ie : s.clearKeyValid.ie = s.ie := rfl
@[simp] theorem State.clearKeyValid_lastcmd : s.clearKeyValid.lastcmd = s.lastcmd := rfl
@[simp] theorem State.clearKeyValid_digits : s.clearKeyValid.digits = s.digits := rfl
@[simp] theorem State.clearKeyValid_alg : s.clearKeyValid.alg = s.alg := rfl
@[simp] theorem State.clearKeyValid_period : s.clearKeyValid.period = s.period := rfl
@[simp] theorem State.clearKeyValid_epoch : s.clearKeyValid.epoch = s.epoch := rfl
@[simp] theorem State.clearKeyValid_ctr : s.clearKeyValid.ctr = s.ctr := rfl
@[simp] theorem State.clearKeyValid_time : s.clearKeyValid.time = s.time := rfl
@[simp] theorem State.clearKeyValid_secretLen : s.clearKeyValid.secretLen = s.secretLen := rfl
@[simp] theorem State.clearKeyValid_digestLen : s.clearKeyValid.digestLen = s.digestLen := rfl
@[simp] theorem State.clearKeyValid_candLen : s.clearKeyValid.candLen = s.candLen := rfl
@[simp] theorem State.clearKeyValid_tctr : s.clearKeyValid.tctr = s.tctr := rfl
@[simp] theorem State.clearKeyValid_offset : s.clearKeyValid.offset = s.offset := rfl
@[simp] theorem State.clearKeyValid_value : s.clearKeyValid.value = s.value := rfl
@[simp] theorem State.clearKeyValid_code : s.clearKeyValid.code = s.code := rfl
@[simp] theorem State.clearKeyValid_strlen : s.clearKeyValid.strlen = s.strlen := rfl
@[simp] theorem State.clearKeyValid_codestr : s.clearKeyValid.codestr = s.codestr := rfl
@[simp] theorem State.clearKeyValid_cand : s.clearKeyValid.cand = s.cand := rfl
@[simp] theorem State.clearKeyValid_digest : s.clearKeyValid.digest = s.digest := rfl
@[simp] theorem State.clearKeyValid_secret : s.clearKeyValid.secret = s.secret := rfl
@[simp] theorem State.clearKeyValid_keyblk : s.clearKeyValid.keyblk = s.keyblk := rfl
@[simp] theorem State.clearKeyValid_hostQueue : s.clearKeyValid.hostQueue = s.hostQueue := rfl
@[simp] theorem State.clearKeyValid_schedule : s.clearKeyValid.schedule = s.schedule := rfl
@[simp] theorem State.clearKeyValid_responses : s.clearKeyValid.responses = s.responses := rfl

/-! ### setMatch: the comparison (R170) -/

@[simp] theorem State.setMatch_busy : s.setMatch.busy = s.busy := rfl
@[simp] theorem State.setMatch_done : s.setMatch.done = s.done := rfl
@[simp] theorem State.setMatch_matched : s.setMatch.matched = s.candidateMatches := rfl
@[simp] theorem State.setMatch_keyvalid : s.setMatch.keyvalid = s.keyvalid := rfl
@[simp] theorem State.setMatch_err : s.setMatch.err = s.err := rfl
@[simp] theorem State.setMatch_ie : s.setMatch.ie = s.ie := rfl
@[simp] theorem State.setMatch_lastcmd : s.setMatch.lastcmd = s.lastcmd := rfl
@[simp] theorem State.setMatch_digits : s.setMatch.digits = s.digits := rfl
@[simp] theorem State.setMatch_alg : s.setMatch.alg = s.alg := rfl
@[simp] theorem State.setMatch_period : s.setMatch.period = s.period := rfl
@[simp] theorem State.setMatch_epoch : s.setMatch.epoch = s.epoch := rfl
@[simp] theorem State.setMatch_ctr : s.setMatch.ctr = s.ctr := rfl
@[simp] theorem State.setMatch_time : s.setMatch.time = s.time := rfl
@[simp] theorem State.setMatch_secretLen : s.setMatch.secretLen = s.secretLen := rfl
@[simp] theorem State.setMatch_digestLen : s.setMatch.digestLen = s.digestLen := rfl
@[simp] theorem State.setMatch_candLen : s.setMatch.candLen = s.candLen := rfl
@[simp] theorem State.setMatch_tctr : s.setMatch.tctr = s.tctr := rfl
@[simp] theorem State.setMatch_offset : s.setMatch.offset = s.offset := rfl
@[simp] theorem State.setMatch_value : s.setMatch.value = s.value := rfl
@[simp] theorem State.setMatch_code : s.setMatch.code = s.code := rfl
@[simp] theorem State.setMatch_strlen : s.setMatch.strlen = s.strlen := rfl
@[simp] theorem State.setMatch_codestr : s.setMatch.codestr = s.codestr := rfl
@[simp] theorem State.setMatch_cand : s.setMatch.cand = s.cand := rfl
@[simp] theorem State.setMatch_digest : s.setMatch.digest = s.digest := rfl
@[simp] theorem State.setMatch_secret : s.setMatch.secret = s.secret := rfl
@[simp] theorem State.setMatch_keyblk : s.setMatch.keyblk = s.keyblk := rfl
@[simp] theorem State.setMatch_hostQueue : s.setMatch.hostQueue = s.hostQueue := rfl
@[simp] theorem State.setMatch_schedule : s.setMatch.schedule = s.schedule := rfl
@[simp] theorem State.setMatch_responses : s.setMatch.responses = s.responses := rfl

/-! ### setKeyBlock: the key block (R192) -/

@[simp] theorem State.setKeyBlock_busy (a : HashAlg) (kb : Bytes) : (s.setKeyBlock a kb).busy = s.busy := rfl
@[simp] theorem State.setKeyBlock_done (a : HashAlg) (kb : Bytes) : (s.setKeyBlock a kb).done = s.done := rfl
@[simp] theorem State.setKeyBlock_matched (a : HashAlg) (kb : Bytes) : (s.setKeyBlock a kb).matched = s.matched := rfl
@[simp] theorem State.setKeyBlock_keyvalid (a : HashAlg) (kb : Bytes) : (s.setKeyBlock a kb).keyvalid = true := rfl
@[simp] theorem State.setKeyBlock_err (a : HashAlg) (kb : Bytes) : (s.setKeyBlock a kb).err = s.err := rfl
@[simp] theorem State.setKeyBlock_ie (a : HashAlg) (kb : Bytes) : (s.setKeyBlock a kb).ie = s.ie := rfl
@[simp] theorem State.setKeyBlock_lastcmd (a : HashAlg) (kb : Bytes) : (s.setKeyBlock a kb).lastcmd = s.lastcmd := rfl
@[simp] theorem State.setKeyBlock_digits (a : HashAlg) (kb : Bytes) : (s.setKeyBlock a kb).digits = s.digits := rfl
@[simp] theorem State.setKeyBlock_alg (a : HashAlg) (kb : Bytes) : (s.setKeyBlock a kb).alg = s.alg := rfl
@[simp] theorem State.setKeyBlock_period (a : HashAlg) (kb : Bytes) : (s.setKeyBlock a kb).period = s.period := rfl
@[simp] theorem State.setKeyBlock_epoch (a : HashAlg) (kb : Bytes) : (s.setKeyBlock a kb).epoch = s.epoch := rfl
@[simp] theorem State.setKeyBlock_ctr (a : HashAlg) (kb : Bytes) : (s.setKeyBlock a kb).ctr = s.ctr := rfl
@[simp] theorem State.setKeyBlock_time (a : HashAlg) (kb : Bytes) : (s.setKeyBlock a kb).time = s.time := rfl
@[simp] theorem State.setKeyBlock_secretLen (a : HashAlg) (kb : Bytes) :
    (s.setKeyBlock a kb).secretLen = s.secretLen := rfl
@[simp] theorem State.setKeyBlock_digestLen (a : HashAlg) (kb : Bytes) :
    (s.setKeyBlock a kb).digestLen = s.digestLen := rfl
@[simp] theorem State.setKeyBlock_candLen (a : HashAlg) (kb : Bytes) : (s.setKeyBlock a kb).candLen = s.candLen := rfl
@[simp] theorem State.setKeyBlock_tctr (a : HashAlg) (kb : Bytes) : (s.setKeyBlock a kb).tctr = s.tctr := rfl
@[simp] theorem State.setKeyBlock_offset (a : HashAlg) (kb : Bytes) : (s.setKeyBlock a kb).offset = s.offset := rfl
@[simp] theorem State.setKeyBlock_value (a : HashAlg) (kb : Bytes) : (s.setKeyBlock a kb).value = s.value := rfl
@[simp] theorem State.setKeyBlock_code (a : HashAlg) (kb : Bytes) : (s.setKeyBlock a kb).code = s.code := rfl
@[simp] theorem State.setKeyBlock_strlen (a : HashAlg) (kb : Bytes) : (s.setKeyBlock a kb).strlen = s.strlen := rfl
@[simp] theorem State.setKeyBlock_codestr (a : HashAlg) (kb : Bytes) : (s.setKeyBlock a kb).codestr = s.codestr := rfl
@[simp] theorem State.setKeyBlock_cand (a : HashAlg) (kb : Bytes) : (s.setKeyBlock a kb).cand = s.cand := rfl
@[simp] theorem State.setKeyBlock_digest (a : HashAlg) (kb : Bytes) : (s.setKeyBlock a kb).digest = s.digest := rfl
@[simp] theorem State.setKeyBlock_secret (a : HashAlg) (kb : Bytes) : (s.setKeyBlock a kb).secret = s.secret := rfl
@[simp] theorem State.setKeyBlock_keyblk (a : HashAlg) (kb : Bytes) :
    (s.setKeyBlock a kb).keyblk = Memory.ofBytes (kb ++ zeros (128 - a.blockLen)) := rfl
@[simp] theorem State.setKeyBlock_hostQueue (a : HashAlg) (kb : Bytes) :
    (s.setKeyBlock a kb).hostQueue = s.hostQueue := rfl
@[simp] theorem State.setKeyBlock_schedule (a : HashAlg) (kb : Bytes) :
    (s.setKeyBlock a kb).schedule = s.schedule := rfl
@[simp] theorem State.setKeyBlock_responses (a : HashAlg) (kb : Bytes) :
    (s.setKeyBlock a kb).responses = s.responses := rfl

/-! ### setDigest: the digest (R193) -/

@[simp] theorem State.setDigest_busy (a : HashAlg) (d : Bytes) : (s.setDigest a d).busy = s.busy := rfl
@[simp] theorem State.setDigest_done (a : HashAlg) (d : Bytes) : (s.setDigest a d).done = s.done := rfl
@[simp] theorem State.setDigest_matched (a : HashAlg) (d : Bytes) : (s.setDigest a d).matched = s.matched := rfl
@[simp] theorem State.setDigest_keyvalid (a : HashAlg) (d : Bytes) : (s.setDigest a d).keyvalid = s.keyvalid := rfl
@[simp] theorem State.setDigest_err (a : HashAlg) (d : Bytes) : (s.setDigest a d).err = s.err := rfl
@[simp] theorem State.setDigest_ie (a : HashAlg) (d : Bytes) : (s.setDigest a d).ie = s.ie := rfl
@[simp] theorem State.setDigest_lastcmd (a : HashAlg) (d : Bytes) : (s.setDigest a d).lastcmd = s.lastcmd := rfl
@[simp] theorem State.setDigest_digits (a : HashAlg) (d : Bytes) : (s.setDigest a d).digits = s.digits := rfl
@[simp] theorem State.setDigest_alg (a : HashAlg) (d : Bytes) : (s.setDigest a d).alg = s.alg := rfl
@[simp] theorem State.setDigest_period (a : HashAlg) (d : Bytes) : (s.setDigest a d).period = s.period := rfl
@[simp] theorem State.setDigest_epoch (a : HashAlg) (d : Bytes) : (s.setDigest a d).epoch = s.epoch := rfl
@[simp] theorem State.setDigest_ctr (a : HashAlg) (d : Bytes) : (s.setDigest a d).ctr = s.ctr := rfl
@[simp] theorem State.setDigest_time (a : HashAlg) (d : Bytes) : (s.setDigest a d).time = s.time := rfl
@[simp] theorem State.setDigest_secretLen (a : HashAlg) (d : Bytes) : (s.setDigest a d).secretLen = s.secretLen := rfl
@[simp] theorem State.setDigest_digestLen (a : HashAlg) (d : Bytes) :
    (s.setDigest a d).digestLen = BitVec.ofNat 8 a.digestLen := rfl
@[simp] theorem State.setDigest_candLen (a : HashAlg) (d : Bytes) : (s.setDigest a d).candLen = s.candLen := rfl
@[simp] theorem State.setDigest_tctr (a : HashAlg) (d : Bytes) : (s.setDigest a d).tctr = s.tctr := rfl
@[simp] theorem State.setDigest_offset (a : HashAlg) (d : Bytes) : (s.setDigest a d).offset = s.offset := rfl
@[simp] theorem State.setDigest_value (a : HashAlg) (d : Bytes) : (s.setDigest a d).value = s.value := rfl
@[simp] theorem State.setDigest_code (a : HashAlg) (d : Bytes) : (s.setDigest a d).code = s.code := rfl
@[simp] theorem State.setDigest_strlen (a : HashAlg) (d : Bytes) : (s.setDigest a d).strlen = s.strlen := rfl
@[simp] theorem State.setDigest_codestr (a : HashAlg) (d : Bytes) : (s.setDigest a d).codestr = s.codestr := rfl
@[simp] theorem State.setDigest_cand (a : HashAlg) (d : Bytes) : (s.setDigest a d).cand = s.cand := rfl
@[simp] theorem State.setDigest_digest (a : HashAlg) (d : Bytes) :
    (s.setDigest a d).digest = Memory.ofBytes (d ++ zeros (64 - a.digestLen)) := rfl
@[simp] theorem State.setDigest_secret (a : HashAlg) (d : Bytes) : (s.setDigest a d).secret = s.secret := rfl
@[simp] theorem State.setDigest_keyblk (a : HashAlg) (d : Bytes) : (s.setDigest a d).keyblk = s.keyblk := rfl
@[simp] theorem State.setDigest_hostQueue (a : HashAlg) (d : Bytes) : (s.setDigest a d).hostQueue = s.hostQueue := rfl
@[simp] theorem State.setDigest_schedule (a : HashAlg) (d : Bytes) : (s.setDigest a d).schedule = s.schedule := rfl
@[simp] theorem State.setDigest_responses (a : HashAlg) (d : Bytes) : (s.setDigest a d).responses = s.responses := rfl

/-! ### setExtract: the extraction (R165) -/

@[simp] theorem State.setExtract_busy (d : Bytes) : (s.setExtract d).busy = s.busy := rfl
@[simp] theorem State.setExtract_done (d : Bytes) : (s.setExtract d).done = s.done := rfl
@[simp] theorem State.setExtract_matched (d : Bytes) : (s.setExtract d).matched = s.matched := rfl
@[simp] theorem State.setExtract_keyvalid (d : Bytes) : (s.setExtract d).keyvalid = s.keyvalid := rfl
@[simp] theorem State.setExtract_err (d : Bytes) : (s.setExtract d).err = s.err := rfl
@[simp] theorem State.setExtract_ie (d : Bytes) : (s.setExtract d).ie = s.ie := rfl
@[simp] theorem State.setExtract_lastcmd (d : Bytes) : (s.setExtract d).lastcmd = s.lastcmd := rfl
@[simp] theorem State.setExtract_digits (d : Bytes) : (s.setExtract d).digits = s.digits := rfl
@[simp] theorem State.setExtract_alg (d : Bytes) : (s.setExtract d).alg = s.alg := rfl
@[simp] theorem State.setExtract_period (d : Bytes) : (s.setExtract d).period = s.period := rfl
@[simp] theorem State.setExtract_epoch (d : Bytes) : (s.setExtract d).epoch = s.epoch := rfl
@[simp] theorem State.setExtract_ctr (d : Bytes) : (s.setExtract d).ctr = s.ctr := rfl
@[simp] theorem State.setExtract_time (d : Bytes) : (s.setExtract d).time = s.time := rfl
@[simp] theorem State.setExtract_secretLen (d : Bytes) : (s.setExtract d).secretLen = s.secretLen := rfl
@[simp] theorem State.setExtract_digestLen (d : Bytes) : (s.setExtract d).digestLen = s.digestLen := rfl
@[simp] theorem State.setExtract_candLen (d : Bytes) : (s.setExtract d).candLen = s.candLen := rfl
@[simp] theorem State.setExtract_tctr (d : Bytes) : (s.setExtract d).tctr = s.tctr := rfl
@[simp] theorem State.setExtract_offset (d : Bytes) : (s.setExtract d).offset = BitVec.ofNat 4 (dtOffset d) := rfl
@[simp] theorem State.setExtract_value (d : Bytes) : (s.setExtract d).value = BitVec.ofNat 31 (dtValue d) := rfl
@[simp] theorem State.setExtract_code (d : Bytes) : (s.setExtract d).code = s.code := rfl
@[simp] theorem State.setExtract_strlen (d : Bytes) : (s.setExtract d).strlen = s.strlen := rfl
@[simp] theorem State.setExtract_codestr (d : Bytes) : (s.setExtract d).codestr = s.codestr := rfl
@[simp] theorem State.setExtract_cand (d : Bytes) : (s.setExtract d).cand = s.cand := rfl
@[simp] theorem State.setExtract_digest (d : Bytes) : (s.setExtract d).digest = s.digest := rfl
@[simp] theorem State.setExtract_secret (d : Bytes) : (s.setExtract d).secret = s.secret := rfl
@[simp] theorem State.setExtract_keyblk (d : Bytes) : (s.setExtract d).keyblk = s.keyblk := rfl
@[simp] theorem State.setExtract_hostQueue (d : Bytes) : (s.setExtract d).hostQueue = s.hostQueue := rfl
@[simp] theorem State.setExtract_schedule (d : Bytes) : (s.setExtract d).schedule = s.schedule := rfl
@[simp] theorem State.setExtract_responses (d : Bytes) : (s.setExtract d).responses = s.responses := rfl

/-! ### setCode: the reduction (R166) -/

@[simp] theorem State.setCode_busy (v n : Nat) : (s.setCode v n).busy = s.busy := rfl
@[simp] theorem State.setCode_done (v n : Nat) : (s.setCode v n).done = s.done := rfl
@[simp] theorem State.setCode_matched (v n : Nat) : (s.setCode v n).matched = s.matched := rfl
@[simp] theorem State.setCode_keyvalid (v n : Nat) : (s.setCode v n).keyvalid = s.keyvalid := rfl
@[simp] theorem State.setCode_err (v n : Nat) : (s.setCode v n).err = s.err := rfl
@[simp] theorem State.setCode_ie (v n : Nat) : (s.setCode v n).ie = s.ie := rfl
@[simp] theorem State.setCode_lastcmd (v n : Nat) : (s.setCode v n).lastcmd = s.lastcmd := rfl
@[simp] theorem State.setCode_digits (v n : Nat) : (s.setCode v n).digits = s.digits := rfl
@[simp] theorem State.setCode_alg (v n : Nat) : (s.setCode v n).alg = s.alg := rfl
@[simp] theorem State.setCode_period (v n : Nat) : (s.setCode v n).period = s.period := rfl
@[simp] theorem State.setCode_epoch (v n : Nat) : (s.setCode v n).epoch = s.epoch := rfl
@[simp] theorem State.setCode_ctr (v n : Nat) : (s.setCode v n).ctr = s.ctr := rfl
@[simp] theorem State.setCode_time (v n : Nat) : (s.setCode v n).time = s.time := rfl
@[simp] theorem State.setCode_secretLen (v n : Nat) : (s.setCode v n).secretLen = s.secretLen := rfl
@[simp] theorem State.setCode_digestLen (v n : Nat) : (s.setCode v n).digestLen = s.digestLen := rfl
@[simp] theorem State.setCode_candLen (v n : Nat) : (s.setCode v n).candLen = s.candLen := rfl
@[simp] theorem State.setCode_tctr (v n : Nat) : (s.setCode v n).tctr = s.tctr := rfl
@[simp] theorem State.setCode_offset (v n : Nat) : (s.setCode v n).offset = s.offset := rfl
@[simp] theorem State.setCode_value (v n : Nat) : (s.setCode v n).value = s.value := rfl
@[simp] theorem State.setCode_code (v n : Nat) : (s.setCode v n).code = BitVec.ofNat 32 (reduceCode v n) := rfl
@[simp] theorem State.setCode_strlen (v n : Nat) : (s.setCode v n).strlen = s.strlen := rfl
@[simp] theorem State.setCode_codestr (v n : Nat) : (s.setCode v n).codestr = s.codestr := rfl
@[simp] theorem State.setCode_cand (v n : Nat) : (s.setCode v n).cand = s.cand := rfl
@[simp] theorem State.setCode_digest (v n : Nat) : (s.setCode v n).digest = s.digest := rfl
@[simp] theorem State.setCode_secret (v n : Nat) : (s.setCode v n).secret = s.secret := rfl
@[simp] theorem State.setCode_keyblk (v n : Nat) : (s.setCode v n).keyblk = s.keyblk := rfl
@[simp] theorem State.setCode_hostQueue (v n : Nat) : (s.setCode v n).hostQueue = s.hostQueue := rfl
@[simp] theorem State.setCode_schedule (v n : Nat) : (s.setCode v n).schedule = s.schedule := rfl
@[simp] theorem State.setCode_responses (v n : Nat) : (s.setCode v n).responses = s.responses := rfl

/-! ### setString: the rendering (R167) -/

@[simp] theorem State.setString_busy (v n : Nat) : (s.setString v n).busy = s.busy := rfl
@[simp] theorem State.setString_done (v n : Nat) : (s.setString v n).done = s.done := rfl
@[simp] theorem State.setString_matched (v n : Nat) : (s.setString v n).matched = s.matched := rfl
@[simp] theorem State.setString_keyvalid (v n : Nat) : (s.setString v n).keyvalid = s.keyvalid := rfl
@[simp] theorem State.setString_err (v n : Nat) : (s.setString v n).err = s.err := rfl
@[simp] theorem State.setString_ie (v n : Nat) : (s.setString v n).ie = s.ie := rfl
@[simp] theorem State.setString_lastcmd (v n : Nat) : (s.setString v n).lastcmd = s.lastcmd := rfl
@[simp] theorem State.setString_digits (v n : Nat) : (s.setString v n).digits = s.digits := rfl
@[simp] theorem State.setString_alg (v n : Nat) : (s.setString v n).alg = s.alg := rfl
@[simp] theorem State.setString_period (v n : Nat) : (s.setString v n).period = s.period := rfl
@[simp] theorem State.setString_epoch (v n : Nat) : (s.setString v n).epoch = s.epoch := rfl
@[simp] theorem State.setString_ctr (v n : Nat) : (s.setString v n).ctr = s.ctr := rfl
@[simp] theorem State.setString_time (v n : Nat) : (s.setString v n).time = s.time := rfl
@[simp] theorem State.setString_secretLen (v n : Nat) : (s.setString v n).secretLen = s.secretLen := rfl
@[simp] theorem State.setString_digestLen (v n : Nat) : (s.setString v n).digestLen = s.digestLen := rfl
@[simp] theorem State.setString_candLen (v n : Nat) : (s.setString v n).candLen = s.candLen := rfl
@[simp] theorem State.setString_tctr (v n : Nat) : (s.setString v n).tctr = s.tctr := rfl
@[simp] theorem State.setString_offset (v n : Nat) : (s.setString v n).offset = s.offset := rfl
@[simp] theorem State.setString_value (v n : Nat) : (s.setString v n).value = s.value := rfl
@[simp] theorem State.setString_code (v n : Nat) : (s.setString v n).code = s.code := rfl
@[simp] theorem State.setString_strlen (v n : Nat) : (s.setString v n).strlen = BitVec.ofNat 8 n := rfl
@[simp] theorem State.setString_codestr (v n : Nat) :
    (s.setString v n).codestr = Memory.ofBytes (dec v n ++ zeros (12 - n)) := rfl
@[simp] theorem State.setString_cand (v n : Nat) : (s.setString v n).cand = s.cand := rfl
@[simp] theorem State.setString_digest (v n : Nat) : (s.setString v n).digest = s.digest := rfl
@[simp] theorem State.setString_secret (v n : Nat) : (s.setString v n).secret = s.secret := rfl
@[simp] theorem State.setString_keyblk (v n : Nat) : (s.setString v n).keyblk = s.keyblk := rfl
@[simp] theorem State.setString_hostQueue (v n : Nat) : (s.setString v n).hostQueue = s.hostQueue := rfl
@[simp] theorem State.setString_schedule (v n : Nat) : (s.setString v n).schedule = s.schedule := rfl
@[simp] theorem State.setString_responses (v n : Nat) : (s.setString v n).responses = s.responses := rfl

/-! ### setTrunc: the whole truncation (R168) -/

@[simp] theorem State.setTrunc_busy (d : Bytes) (n : Nat) : (s.setTrunc d n).busy = s.busy := rfl
@[simp] theorem State.setTrunc_done (d : Bytes) (n : Nat) : (s.setTrunc d n).done = s.done := rfl
@[simp] theorem State.setTrunc_matched (d : Bytes) (n : Nat) : (s.setTrunc d n).matched = s.matched := rfl
@[simp] theorem State.setTrunc_keyvalid (d : Bytes) (n : Nat) : (s.setTrunc d n).keyvalid = s.keyvalid := rfl
@[simp] theorem State.setTrunc_err (d : Bytes) (n : Nat) : (s.setTrunc d n).err = s.err := rfl
@[simp] theorem State.setTrunc_ie (d : Bytes) (n : Nat) : (s.setTrunc d n).ie = s.ie := rfl
@[simp] theorem State.setTrunc_lastcmd (d : Bytes) (n : Nat) : (s.setTrunc d n).lastcmd = s.lastcmd := rfl
@[simp] theorem State.setTrunc_digits (d : Bytes) (n : Nat) : (s.setTrunc d n).digits = s.digits := rfl
@[simp] theorem State.setTrunc_alg (d : Bytes) (n : Nat) : (s.setTrunc d n).alg = s.alg := rfl
@[simp] theorem State.setTrunc_period (d : Bytes) (n : Nat) : (s.setTrunc d n).period = s.period := rfl
@[simp] theorem State.setTrunc_epoch (d : Bytes) (n : Nat) : (s.setTrunc d n).epoch = s.epoch := rfl
@[simp] theorem State.setTrunc_ctr (d : Bytes) (n : Nat) : (s.setTrunc d n).ctr = s.ctr := rfl
@[simp] theorem State.setTrunc_time (d : Bytes) (n : Nat) : (s.setTrunc d n).time = s.time := rfl
@[simp] theorem State.setTrunc_secretLen (d : Bytes) (n : Nat) : (s.setTrunc d n).secretLen = s.secretLen := rfl
@[simp] theorem State.setTrunc_digestLen (d : Bytes) (n : Nat) : (s.setTrunc d n).digestLen = s.digestLen := rfl
@[simp] theorem State.setTrunc_candLen (d : Bytes) (n : Nat) : (s.setTrunc d n).candLen = s.candLen := rfl
@[simp] theorem State.setTrunc_tctr (d : Bytes) (n : Nat) : (s.setTrunc d n).tctr = s.tctr := rfl
@[simp] theorem State.setTrunc_offset (d : Bytes) (n : Nat) :
    (s.setTrunc d n).offset = BitVec.ofNat 4 (dtOffset d) := rfl
@[simp] theorem State.setTrunc_value (d : Bytes) (n : Nat) :
    (s.setTrunc d n).value = BitVec.ofNat 31 (dtValue d) := rfl
@[simp] theorem State.setTrunc_code (d : Bytes) (n : Nat) :
    (s.setTrunc d n).code = BitVec.ofNat 32 (reduceCode (dtValue d) n) := rfl
@[simp] theorem State.setTrunc_strlen (d : Bytes) (n : Nat) : (s.setTrunc d n).strlen = BitVec.ofNat 8 n := rfl
@[simp] theorem State.setTrunc_codestr (d : Bytes) (n : Nat) :
    (s.setTrunc d n).codestr = Memory.ofBytes (dec (reduceCode (dtValue d) n) n ++ zeros (12 - n)) := rfl
@[simp] theorem State.setTrunc_cand (d : Bytes) (n : Nat) : (s.setTrunc d n).cand = s.cand := rfl
@[simp] theorem State.setTrunc_digest (d : Bytes) (n : Nat) : (s.setTrunc d n).digest = s.digest := rfl
@[simp] theorem State.setTrunc_secret (d : Bytes) (n : Nat) : (s.setTrunc d n).secret = s.secret := rfl
@[simp] theorem State.setTrunc_keyblk (d : Bytes) (n : Nat) : (s.setTrunc d n).keyblk = s.keyblk := rfl
@[simp] theorem State.setTrunc_hostQueue (d : Bytes) (n : Nat) : (s.setTrunc d n).hostQueue = s.hostQueue := rfl
@[simp] theorem State.setTrunc_schedule (d : Bytes) (n : Nat) : (s.setTrunc d n).schedule = s.schedule := rfl
@[simp] theorem State.setTrunc_responses (d : Bytes) (n : Nat) : (s.setTrunc d n).responses = s.responses := rfl

/-! ### otpStages: the pipeline (R210) -/

@[simp] theorem State.otpStages_busy (a : HashAlg) (k : Bytes) (c n : Nat) :
    (s.otpStages a k c n).busy = s.busy := rfl
@[simp] theorem State.otpStages_done (a : HashAlg) (k : Bytes) (c n : Nat) :
    (s.otpStages a k c n).done = s.done := rfl
@[simp] theorem State.otpStages_matched (a : HashAlg) (k : Bytes) (c n : Nat) :
    (s.otpStages a k c n).matched = s.matched := rfl
@[simp] theorem State.otpStages_keyvalid (a : HashAlg) (k : Bytes) (c n : Nat) :
    (s.otpStages a k c n).keyvalid = true := rfl
@[simp] theorem State.otpStages_err (a : HashAlg) (k : Bytes) (c n : Nat) : (s.otpStages a k c n).err = s.err := rfl
@[simp] theorem State.otpStages_ie (a : HashAlg) (k : Bytes) (c n : Nat) : (s.otpStages a k c n).ie = s.ie := rfl
@[simp] theorem State.otpStages_lastcmd (a : HashAlg) (k : Bytes) (c n : Nat) :
    (s.otpStages a k c n).lastcmd = s.lastcmd := rfl
@[simp] theorem State.otpStages_digits (a : HashAlg) (k : Bytes) (c n : Nat) :
    (s.otpStages a k c n).digits = s.digits := rfl
@[simp] theorem State.otpStages_alg (a : HashAlg) (k : Bytes) (c n : Nat) : (s.otpStages a k c n).alg = s.alg := rfl
@[simp] theorem State.otpStages_period (a : HashAlg) (k : Bytes) (c n : Nat) :
    (s.otpStages a k c n).period = s.period := rfl
@[simp] theorem State.otpStages_epoch (a : HashAlg) (k : Bytes) (c n : Nat) :
    (s.otpStages a k c n).epoch = s.epoch := rfl
@[simp] theorem State.otpStages_ctr (a : HashAlg) (k : Bytes) (c n : Nat) : (s.otpStages a k c n).ctr = s.ctr := rfl
@[simp] theorem State.otpStages_time (a : HashAlg) (k : Bytes) (c n : Nat) :
    (s.otpStages a k c n).time = s.time := rfl
@[simp] theorem State.otpStages_secretLen (a : HashAlg) (k : Bytes) (c n : Nat) :
    (s.otpStages a k c n).secretLen = s.secretLen := rfl
@[simp] theorem State.otpStages_digestLen (a : HashAlg) (k : Bytes) (c n : Nat) :
    (s.otpStages a k c n).digestLen = BitVec.ofNat 8 a.digestLen := rfl
@[simp] theorem State.otpStages_candLen (a : HashAlg) (k : Bytes) (c n : Nat) :
    (s.otpStages a k c n).candLen = s.candLen := rfl
@[simp] theorem State.otpStages_tctr (a : HashAlg) (k : Bytes) (c n : Nat) :
    (s.otpStages a k c n).tctr = s.tctr := rfl
@[simp] theorem State.otpStages_offset (a : HashAlg) (k : Bytes) (c n : Nat) :
    (s.otpStages a k c n).offset = BitVec.ofNat 4 (dtOffset (hmac a (normKey a k) (be64 c))) := rfl
@[simp] theorem State.otpStages_value (a : HashAlg) (k : Bytes) (c n : Nat) :
    (s.otpStages a k c n).value = BitVec.ofNat 31 (dtValue (hmac a (normKey a k) (be64 c))) := rfl
@[simp] theorem State.otpStages_code (a : HashAlg) (k : Bytes) (c n : Nat) :
    (s.otpStages a k c n).code = BitVec.ofNat 32 (reduceCode (dtValue (hmac a (normKey a k) (be64 c))) n) := rfl
@[simp] theorem State.otpStages_strlen (a : HashAlg) (k : Bytes) (c n : Nat) :
    (s.otpStages a k c n).strlen = BitVec.ofNat 8 n := rfl
@[simp] theorem State.otpStages_codestr (a : HashAlg) (k : Bytes) (c n : Nat) :
    (s.otpStages a k c n).codestr = Memory.ofBytes (dec (reduceCode (dtValue (hmac a (normKey a k) (be64 c))) n) n ++ zeros (12 - n)) := rfl
@[simp] theorem State.otpStages_cand (a : HashAlg) (k : Bytes) (c n : Nat) :
    (s.otpStages a k c n).cand = s.cand := rfl
@[simp] theorem State.otpStages_digest (a : HashAlg) (k : Bytes) (c n : Nat) :
    (s.otpStages a k c n).digest = Memory.ofBytes (hmac a (normKey a k) (be64 c) ++ zeros (64 - a.digestLen)) := rfl
@[simp] theorem State.otpStages_secret (a : HashAlg) (k : Bytes) (c n : Nat) :
    (s.otpStages a k c n).secret = s.secret := rfl
@[simp] theorem State.otpStages_keyblk (a : HashAlg) (k : Bytes) (c n : Nat) :
    (s.otpStages a k c n).keyblk = Memory.ofBytes (normKey a k ++ zeros (128 - a.blockLen)) := rfl
@[simp] theorem State.otpStages_hostQueue (a : HashAlg) (k : Bytes) (c n : Nat) :
    (s.otpStages a k c n).hostQueue = s.hostQueue := rfl
@[simp] theorem State.otpStages_schedule (a : HashAlg) (k : Bytes) (c n : Nat) :
    (s.otpStages a k c n).schedule = s.schedule := rfl
@[simp] theorem State.otpStages_responses (a : HashAlg) (k : Bytes) (c n : Nat) :
    (s.otpStages a k c n).responses = s.responses := rfl

/-! ### setTctr: the time step (R231) -/

@[simp] theorem State.setTctr_busy (q : Nat) : (s.setTctr q).busy = s.busy := rfl
@[simp] theorem State.setTctr_done (q : Nat) : (s.setTctr q).done = s.done := rfl
@[simp] theorem State.setTctr_matched (q : Nat) : (s.setTctr q).matched = s.matched := rfl
@[simp] theorem State.setTctr_keyvalid (q : Nat) : (s.setTctr q).keyvalid = s.keyvalid := rfl
@[simp] theorem State.setTctr_err (q : Nat) : (s.setTctr q).err = s.err := rfl
@[simp] theorem State.setTctr_ie (q : Nat) : (s.setTctr q).ie = s.ie := rfl
@[simp] theorem State.setTctr_lastcmd (q : Nat) : (s.setTctr q).lastcmd = s.lastcmd := rfl
@[simp] theorem State.setTctr_digits (q : Nat) : (s.setTctr q).digits = s.digits := rfl
@[simp] theorem State.setTctr_alg (q : Nat) : (s.setTctr q).alg = s.alg := rfl
@[simp] theorem State.setTctr_period (q : Nat) : (s.setTctr q).period = s.period := rfl
@[simp] theorem State.setTctr_epoch (q : Nat) : (s.setTctr q).epoch = s.epoch := rfl
@[simp] theorem State.setTctr_ctr (q : Nat) : (s.setTctr q).ctr = s.ctr := rfl
@[simp] theorem State.setTctr_time (q : Nat) : (s.setTctr q).time = s.time := rfl
@[simp] theorem State.setTctr_secretLen (q : Nat) : (s.setTctr q).secretLen = s.secretLen := rfl
@[simp] theorem State.setTctr_digestLen (q : Nat) : (s.setTctr q).digestLen = s.digestLen := rfl
@[simp] theorem State.setTctr_candLen (q : Nat) : (s.setTctr q).candLen = s.candLen := rfl
@[simp] theorem State.setTctr_tctr (q : Nat) : (s.setTctr q).tctr = BitVec.ofNat 64 q := rfl
@[simp] theorem State.setTctr_offset (q : Nat) : (s.setTctr q).offset = s.offset := rfl
@[simp] theorem State.setTctr_value (q : Nat) : (s.setTctr q).value = s.value := rfl
@[simp] theorem State.setTctr_code (q : Nat) : (s.setTctr q).code = s.code := rfl
@[simp] theorem State.setTctr_strlen (q : Nat) : (s.setTctr q).strlen = s.strlen := rfl
@[simp] theorem State.setTctr_codestr (q : Nat) : (s.setTctr q).codestr = s.codestr := rfl
@[simp] theorem State.setTctr_cand (q : Nat) : (s.setTctr q).cand = s.cand := rfl
@[simp] theorem State.setTctr_digest (q : Nat) : (s.setTctr q).digest = s.digest := rfl
@[simp] theorem State.setTctr_secret (q : Nat) : (s.setTctr q).secret = s.secret := rfl
@[simp] theorem State.setTctr_keyblk (q : Nat) : (s.setTctr q).keyblk = s.keyblk := rfl
@[simp] theorem State.setTctr_hostQueue (q : Nat) : (s.setTctr q).hostQueue = s.hostQueue := rfl
@[simp] theorem State.setTctr_schedule (q : Nat) : (s.setTctr q).schedule = s.schedule := rfl
@[simp] theorem State.setTctr_responses (q : Nat) : (s.setTctr q).responses = s.responses := rfl

/-! ### withSchedule: the turns to come (R51) -/

@[simp] theorem State.withSchedule_busy (turns : List Agent) : (s.withSchedule turns).busy = s.busy := rfl
@[simp] theorem State.withSchedule_done (turns : List Agent) : (s.withSchedule turns).done = s.done := rfl
@[simp] theorem State.withSchedule_matched (turns : List Agent) : (s.withSchedule turns).matched = s.matched := rfl
@[simp] theorem State.withSchedule_keyvalid (turns : List Agent) : (s.withSchedule turns).keyvalid = s.keyvalid := rfl
@[simp] theorem State.withSchedule_err (turns : List Agent) : (s.withSchedule turns).err = s.err := rfl
@[simp] theorem State.withSchedule_ie (turns : List Agent) : (s.withSchedule turns).ie = s.ie := rfl
@[simp] theorem State.withSchedule_lastcmd (turns : List Agent) : (s.withSchedule turns).lastcmd = s.lastcmd := rfl
@[simp] theorem State.withSchedule_digits (turns : List Agent) : (s.withSchedule turns).digits = s.digits := rfl
@[simp] theorem State.withSchedule_alg (turns : List Agent) : (s.withSchedule turns).alg = s.alg := rfl
@[simp] theorem State.withSchedule_period (turns : List Agent) : (s.withSchedule turns).period = s.period := rfl
@[simp] theorem State.withSchedule_epoch (turns : List Agent) : (s.withSchedule turns).epoch = s.epoch := rfl
@[simp] theorem State.withSchedule_ctr (turns : List Agent) : (s.withSchedule turns).ctr = s.ctr := rfl
@[simp] theorem State.withSchedule_time (turns : List Agent) : (s.withSchedule turns).time = s.time := rfl
@[simp] theorem State.withSchedule_secretLen (turns : List Agent) :
    (s.withSchedule turns).secretLen = s.secretLen := rfl
@[simp] theorem State.withSchedule_digestLen (turns : List Agent) :
    (s.withSchedule turns).digestLen = s.digestLen := rfl
@[simp] theorem State.withSchedule_candLen (turns : List Agent) : (s.withSchedule turns).candLen = s.candLen := rfl
@[simp] theorem State.withSchedule_tctr (turns : List Agent) : (s.withSchedule turns).tctr = s.tctr := rfl
@[simp] theorem State.withSchedule_offset (turns : List Agent) : (s.withSchedule turns).offset = s.offset := rfl
@[simp] theorem State.withSchedule_value (turns : List Agent) : (s.withSchedule turns).value = s.value := rfl
@[simp] theorem State.withSchedule_code (turns : List Agent) : (s.withSchedule turns).code = s.code := rfl
@[simp] theorem State.withSchedule_strlen (turns : List Agent) : (s.withSchedule turns).strlen = s.strlen := rfl
@[simp] theorem State.withSchedule_codestr (turns : List Agent) : (s.withSchedule turns).codestr = s.codestr := rfl
@[simp] theorem State.withSchedule_cand (turns : List Agent) : (s.withSchedule turns).cand = s.cand := rfl
@[simp] theorem State.withSchedule_digest (turns : List Agent) : (s.withSchedule turns).digest = s.digest := rfl
@[simp] theorem State.withSchedule_secret (turns : List Agent) : (s.withSchedule turns).secret = s.secret := rfl
@[simp] theorem State.withSchedule_keyblk (turns : List Agent) : (s.withSchedule turns).keyblk = s.keyblk := rfl
@[simp] theorem State.withSchedule_hostQueue (turns : List Agent) :
    (s.withSchedule turns).hostQueue = s.hostQueue := rfl
@[simp] theorem State.withSchedule_schedule (turns : List Agent) : (s.withSchedule turns).schedule = turns := rfl
@[simp] theorem State.withSchedule_responses (turns : List Agent) :
    (s.withSchedule turns).responses = s.responses := rfl

/-! ### received: a response received (R71) -/

@[simp] theorem State.received_busy (left : List HostOp) (r : Response) : (s.received left r).busy = s.busy := rfl
@[simp] theorem State.received_done (left : List HostOp) (r : Response) : (s.received left r).done = s.done := rfl
@[simp] theorem State.received_matched (left : List HostOp) (r : Response) :
    (s.received left r).matched = s.matched := rfl
@[simp] theorem State.received_keyvalid (left : List HostOp) (r : Response) :
    (s.received left r).keyvalid = s.keyvalid := rfl
@[simp] theorem State.received_err (left : List HostOp) (r : Response) : (s.received left r).err = s.err := rfl
@[simp] theorem State.received_ie (left : List HostOp) (r : Response) : (s.received left r).ie = s.ie := rfl
@[simp] theorem State.received_lastcmd (left : List HostOp) (r : Response) :
    (s.received left r).lastcmd = s.lastcmd := rfl
@[simp] theorem State.received_digits (left : List HostOp) (r : Response) :
    (s.received left r).digits = s.digits := rfl
@[simp] theorem State.received_alg (left : List HostOp) (r : Response) : (s.received left r).alg = s.alg := rfl
@[simp] theorem State.received_period (left : List HostOp) (r : Response) :
    (s.received left r).period = s.period := rfl
@[simp] theorem State.received_epoch (left : List HostOp) (r : Response) : (s.received left r).epoch = s.epoch := rfl
@[simp] theorem State.received_ctr (left : List HostOp) (r : Response) : (s.received left r).ctr = s.ctr := rfl
@[simp] theorem State.received_time (left : List HostOp) (r : Response) : (s.received left r).time = s.time := rfl
@[simp] theorem State.received_secretLen (left : List HostOp) (r : Response) :
    (s.received left r).secretLen = s.secretLen := rfl
@[simp] theorem State.received_digestLen (left : List HostOp) (r : Response) :
    (s.received left r).digestLen = s.digestLen := rfl
@[simp] theorem State.received_candLen (left : List HostOp) (r : Response) :
    (s.received left r).candLen = s.candLen := rfl
@[simp] theorem State.received_tctr (left : List HostOp) (r : Response) : (s.received left r).tctr = s.tctr := rfl
@[simp] theorem State.received_offset (left : List HostOp) (r : Response) :
    (s.received left r).offset = s.offset := rfl
@[simp] theorem State.received_value (left : List HostOp) (r : Response) : (s.received left r).value = s.value := rfl
@[simp] theorem State.received_code (left : List HostOp) (r : Response) : (s.received left r).code = s.code := rfl
@[simp] theorem State.received_strlen (left : List HostOp) (r : Response) :
    (s.received left r).strlen = s.strlen := rfl
@[simp] theorem State.received_codestr (left : List HostOp) (r : Response) :
    (s.received left r).codestr = s.codestr := rfl
@[simp] theorem State.received_cand (left : List HostOp) (r : Response) : (s.received left r).cand = s.cand := rfl
@[simp] theorem State.received_digest (left : List HostOp) (r : Response) :
    (s.received left r).digest = s.digest := rfl
@[simp] theorem State.received_secret (left : List HostOp) (r : Response) :
    (s.received left r).secret = s.secret := rfl
@[simp] theorem State.received_keyblk (left : List HostOp) (r : Response) :
    (s.received left r).keyblk = s.keyblk := rfl
@[simp] theorem State.received_hostQueue (left : List HostOp) (r : Response) :
    (s.received left r).hostQueue = left := rfl
@[simp] theorem State.received_schedule (left : List HostOp) (r : Response) :
    (s.received left r).schedule = s.schedule := rfl
@[simp] theorem State.received_responses (left : List HostOp) (r : Response) :
    (s.received left r).responses = r :: s.responses := rfl

/-! ### zeroize: `CLEAR` (R251) -/

@[simp] theorem State.zeroize_busy : s.zeroize.busy = s.busy := rfl
@[simp] theorem State.zeroize_done : s.zeroize.done = s.done := rfl
@[simp] theorem State.zeroize_matched : s.zeroize.matched = s.matched := rfl
@[simp] theorem State.zeroize_keyvalid : s.zeroize.keyvalid = false := rfl
@[simp] theorem State.zeroize_err : s.zeroize.err = s.err := rfl
@[simp] theorem State.zeroize_ie : s.zeroize.ie = s.ie := rfl
@[simp] theorem State.zeroize_lastcmd : s.zeroize.lastcmd = s.lastcmd := rfl
@[simp] theorem State.zeroize_digits : s.zeroize.digits = s.digits := rfl
@[simp] theorem State.zeroize_alg : s.zeroize.alg = s.alg := rfl
@[simp] theorem State.zeroize_period : s.zeroize.period = s.period := rfl
@[simp] theorem State.zeroize_epoch : s.zeroize.epoch = s.epoch := rfl
@[simp] theorem State.zeroize_ctr : s.zeroize.ctr = s.ctr := rfl
@[simp] theorem State.zeroize_time : s.zeroize.time = s.time := rfl
@[simp] theorem State.zeroize_secretLen : s.zeroize.secretLen = 0 := rfl
@[simp] theorem State.zeroize_digestLen : s.zeroize.digestLen = 0 := rfl
@[simp] theorem State.zeroize_candLen : s.zeroize.candLen = 0 := rfl
@[simp] theorem State.zeroize_tctr : s.zeroize.tctr = 0 := rfl
@[simp] theorem State.zeroize_offset : s.zeroize.offset = 0 := rfl
@[simp] theorem State.zeroize_value : s.zeroize.value = 0 := rfl
@[simp] theorem State.zeroize_code : s.zeroize.code = 0 := rfl
@[simp] theorem State.zeroize_strlen : s.zeroize.strlen = 0 := rfl
@[simp] theorem State.zeroize_codestr : s.zeroize.codestr = Memory.zero := rfl
@[simp] theorem State.zeroize_cand : s.zeroize.cand = Memory.zero := rfl
@[simp] theorem State.zeroize_digest : s.zeroize.digest = Memory.zero := rfl
@[simp] theorem State.zeroize_secret : s.zeroize.secret = Memory.zero := rfl
@[simp] theorem State.zeroize_keyblk : s.zeroize.keyblk = Memory.zero := rfl
@[simp] theorem State.zeroize_hostQueue : s.zeroize.hostQueue = s.hostQueue := rfl
@[simp] theorem State.zeroize_schedule : s.zeroize.schedule = s.schedule := rfl
@[simp] theorem State.zeroize_responses : s.zeroize.responses = s.responses := rfl

/-! ### reset: the state after reset (R47, R300) -/

@[simp] theorem State.reset_busy : State.reset.busy = false := rfl
@[simp] theorem State.reset_done : State.reset.done = false := rfl
@[simp] theorem State.reset_matched : State.reset.matched = false := rfl
@[simp] theorem State.reset_keyvalid : State.reset.keyvalid = false := rfl
@[simp] theorem State.reset_err : State.reset.err = 0 := rfl
@[simp] theorem State.reset_ie : State.reset.ie = false := rfl
@[simp] theorem State.reset_lastcmd : State.reset.lastcmd = 0 := rfl
@[simp] theorem State.reset_digits : State.reset.digits = 6 := rfl
@[simp] theorem State.reset_alg : State.reset.alg = 0 := rfl
@[simp] theorem State.reset_period : State.reset.period = 30 := rfl
@[simp] theorem State.reset_epoch : State.reset.epoch = 0 := rfl
@[simp] theorem State.reset_ctr : State.reset.ctr = 0 := rfl
@[simp] theorem State.reset_time : State.reset.time = 0 := rfl
@[simp] theorem State.reset_secretLen : State.reset.secretLen = 0 := rfl
@[simp] theorem State.reset_digestLen : State.reset.digestLen = 0 := rfl
@[simp] theorem State.reset_candLen : State.reset.candLen = 0 := rfl
@[simp] theorem State.reset_tctr : State.reset.tctr = 0 := rfl
@[simp] theorem State.reset_offset : State.reset.offset = 0 := rfl
@[simp] theorem State.reset_value : State.reset.value = 0 := rfl
@[simp] theorem State.reset_code : State.reset.code = 0 := rfl
@[simp] theorem State.reset_strlen : State.reset.strlen = 0 := rfl
@[simp] theorem State.reset_codestr : State.reset.codestr = Memory.zero := rfl
@[simp] theorem State.reset_cand : State.reset.cand = Memory.zero := rfl
@[simp] theorem State.reset_digest : State.reset.digest = Memory.zero := rfl
@[simp] theorem State.reset_secret : State.reset.secret = Memory.zero := rfl
@[simp] theorem State.reset_keyblk : State.reset.keyblk = Memory.zero := rfl
@[simp] theorem State.reset_hostQueue : State.reset.hostQueue = [] := rfl
@[simp] theorem State.reset_schedule : State.reset.schedule = [] := rfl
@[simp] theorem State.reset_responses : State.reset.responses = [] := rfl

end Sys2Proof.Machine
end

