-- ==== Sys2Proof/Laws/Ops.lean ====
section
/-! SUPPORT. One spec lemma per check and per shared operation: what it can answer, and when. -/

namespace Sys2Proof.Machine

/-- Two checks in sequence succeed when both do. -/
theorem except_bind_eq_ok {ε α β : Type} {x : Except ε α} {f : α → Except ε β} {b : β} :
    (x >>= f) = .ok b ↔ ∃ a, x = .ok a ∧ f a = .ok b := by
  cases x <;> simp [bind, Except.bind]

/-- Two checks in sequence report the first failure. -/
theorem except_bind_eq_error {ε α β : Type} {x : Except ε α} {f : α → Except ε β} {e : ε} :
    (x >>= f) = .error e ↔ x = .error e ∨ ∃ a, x = .ok a ∧ f a = .error e := by
  cases x <;> simp [bind, Except.bind]

/-- A single check succeeds under its condition. -/
theorem check_eq_ok {ε α : Type} {p : Prop} [Decidable p] {v w : α} {e : ε} :
    (if p then Except.ok v else .error e) = .ok w ↔ p ∧ w = v := by
  split <;> simp_all [eq_comm]

/-- A single check fails outside its condition. -/
theorem check_eq_error {ε α : Type} {p : Prop} [Decidable p] {v : α} {e f : ε} :
    (if p then Except.ok v else .error e) = .error f ↔ ¬ p ∧ f = e := by
  split <;> simp_all [eq_comm]

/-- A check written with its failure first. -/
theorem check_not {ε α : Type} {p : Prop} [Decidable p] {x y : Except ε α} :
    (if p then x else y) = if ¬ p then y else x := by
  split <;> simp_all

/-! ### Checks -/

variable {s : State}

theorem HashAlg.ofField_eq_none {f : BitVec 2} : HashAlg.ofField f = none ↔ f = 3 := by
  revert f; decide

/-- A legal `ALG` selects an algorithm (R27). -/
theorem HashAlg.ofField_of_ne {f : BitVec 2} (h : f ≠ 3) : ∃ a, HashAlg.ofField f = some a :=
  Option.ne_none_iff_exists'.1 fun hn => h (HashAlg.ofField_eq_none.1 hn)

theorem requireAlg_eq_ok {a : HashAlg} : s.requireAlg = .ok a ↔ HashAlg.ofField s.alg = some a := by
  unfold State.requireAlg
  split <;> simp_all

theorem requireAlg_eq_error {f : CommandFault} : s.requireAlg = .error f ↔ s.alg = 3 ∧ f = .alg := by
  unfold State.requireAlg
  rw [← HashAlg.ofField_eq_none]
  split
  · next h => simp [h]
  · next h => simp [h, eq_comm]

theorem requireSecret_eq_ok {b : Bytes} :
    s.requireSecret = .ok b ↔ s.secretLen.toNat ≤ 256 ∧ b = s.secretBytes := check_eq_ok

theorem requireSecret_eq_error {f : CommandFault} :
    s.requireSecret = .error f ↔ 256 < s.secretLen.toNat ∧ f = .secLen := by
  rw [State.requireSecret, check_eq_error, Nat.not_le]

theorem requireKey_eq_ok {a : HashAlg} {b : Bytes} :
    s.requireKey a = .ok b ↔ s.keyvalid = true ∧ b = s.keyblk.bytes a.blockLen := check_eq_ok

theorem requireKey_eq_error {a : HashAlg} {f : CommandFault} :
    s.requireKey a = .error f ↔ s.keyvalid = false ∧ f = .noKey := by
  rw [State.requireKey, check_eq_error, Bool.not_eq_true]

theorem ctr_bit63 (c : DWord) : c.getLsbD 63 = true ↔ 2 ^ 63 ≤ c.toNat := by
  have h := BitVec.msb_eq_decide c
  rw [BitVec.msb_eq_getLsbD_last] at h
  rw [show c.getLsbD 63 = decide (2 ^ 63 ≤ c.toNat) from h, decide_eq_true_eq]

theorem requireCounter_eq_ok {n : Nat} :
    s.requireCounter = .ok n ↔ s.ctr.toNat < 2 ^ 63 ∧ n = s.ctr.toNat := by
  rw [State.requireCounter, check_not, check_eq_ok, ctr_bit63, Nat.not_le]

theorem requireCounter_eq_error {f : CommandFault} :
    s.requireCounter = .error f ↔ 2 ^ 63 ≤ s.ctr.toNat ∧ f = .ctrRange := by
  rw [State.requireCounter, check_not, check_eq_error, ctr_bit63, not_not]

/-- The time step is the exact difference divided, truncated toward zero (R230). -/
theorem timeStep_eq : s.timeStep = (s.time.toInt - s.epoch.toInt).tdiv s.period.toNat := truncDiv_eq_tdiv _ _

theorem requireTimeStep_eq_ok {n : Nat} :
    s.requireTimeStep = .ok n ↔ s.period ≠ 0 ∧ 0 ≤ s.timeStep ∧ s.timeStep ≤ 2 ^ 63 - 1 ∧ n = s.timeStep.toNat := by
  unfold State.requireTimeStep
  by_cases hp : s.period = 0
  · simp [hp]
  · rw [if_neg hp, check_eq_ok]; simp only [ne_eq, hp, not_false_iff, true_and, and_assoc]

theorem requireTimeStep_eq_error {f : CommandFault} :
    s.requireTimeStep = .error f ↔
      (s.period = 0 ∧ f = .period) ∨
        (s.period ≠ 0 ∧ (s.timeStep < 0 ∨ 2 ^ 63 - 1 < s.timeStep) ∧ f = .ctrRange) := by
  unfold State.requireTimeStep
  by_cases hp : s.period = 0
  · simp [hp, eq_comm]
  · rw [if_neg hp, check_eq_error]
    simp only [ne_eq, hp, not_false_iff, true_and, false_and, false_or]
    rw [not_and_or, Int.not_le, Int.not_le]

/-- The digest is in the domain of the truncation (R161). -/
def State.DigestOk (s : State) : Prop :=
  1 ≤ s.digestLen.toNat ∧ s.digestLen.toNat ≤ 64 ∧ dtOffset s.digestBytes + 4 ≤ s.digestLen.toNat

theorem requireDigest_eq_ok {b : Bytes} : s.requireDigest = .ok b ↔ s.DigestOk ∧ b = s.digestBytes := by
  unfold State.requireDigest State.DigestOk
  by_cases h : 1 ≤ s.digestLen.toNat ∧ s.digestLen.toNat ≤ 64
  · rw [if_pos h, check_eq_ok]; simp only [h.1, h.2, true_and]
  · rw [if_neg h, ← and_assoc]; simp only [h, false_and, reduceCtorEq]

theorem requireDigest_eq_error {f : CommandFault} : s.requireDigest = .error f ↔ ¬ s.DigestOk ∧ f = .digLen := by
  unfold State.requireDigest State.DigestOk
  by_cases h : 1 ≤ s.digestLen.toNat ∧ s.digestLen.toNat ≤ 64
  · rw [if_pos h, check_eq_error]; simp only [h.1, h.2, true_and]
  · rw [if_neg h, ← and_assoc]; simp only [h, false_and, not_false_iff, true_and, Except.error.injEq, eq_comm]

@[simp] theorem digestBytes_length : s.digestBytes.length = s.digestLen.toNat := by simp [State.digestBytes]

@[simp] theorem secretBytes_length : s.secretBytes.length = s.secretLen.toNat := by simp [State.secretBytes]

@[simp] theorem codeString_length : s.codeString.length = s.strlen.toNat := by simp [State.codeString]

/-- The offset of a non-empty digest register, from its last byte (R161). -/
theorem dtOffset_digestBytes (h : 1 ≤ s.digestLen.toNat) :
    dtOffset s.digestBytes = (s.digest.read (s.digestLen.toNat - 1)).toNat % 16 := by
  rw [dtOffset_eq, digestBytes_length, State.digestBytes, byteAt_bytes _ (by omega)]

theorem requireDigits_eq_ok {n : Nat} :
    s.requireDigits = .ok n ↔ 1 ≤ s.digits.toNat ∧ s.digits.toNat ≤ 10 ∧ n = s.digits.toNat := by
  rw [State.requireDigits, check_eq_ok, and_assoc]

theorem requireDigits_eq_error {f : CommandFault} :
    s.requireDigits = .error f ↔ (s.digits.toNat = 0 ∨ 10 < s.digits.toNat) ∧ f = .digits := by
  rw [State.requireDigits, check_eq_error, not_and_or, Nat.not_le, Nat.not_le, Nat.lt_one_iff]

theorem requireCode_eq_ok {n c : Nat} :
    s.requireCode n = .ok c ↔ s.code.toNat < 10 ^ n ∧ c = s.code.toNat := check_eq_ok

theorem requireCode_eq_error {n : Nat} {f : CommandFault} :
    s.requireCode n = .error f ↔ 10 ^ n ≤ s.code.toNat ∧ f = .codeRange := by
  rw [State.requireCode, check_eq_error, Nat.not_lt]

theorem requireString_eq_ok {u : Unit} : s.requireString = .ok u ↔ s.strlen ≠ 0 := by
  rw [State.requireString, check_not, check_eq_ok]; simp

theorem requireString_eq_error {f : CommandFault} : s.requireString = .error f ↔ s.strlen = 0 ∧ f = .noStr := by
  rw [State.requireString, check_not, check_eq_error, not_not]

/-! ### Complete -/

@[simp] theorem complete_ok (s t : State) : s.complete (.ok t) = t.succeed := rfl

@[simp] theorem complete_error (s : State) (f : CommandFault) : s.complete (.error f) = s.takeFault f := rfl

/-- A command's Complete answers a next state, and only that one (R53). -/
theorem finish_eq_next {r : Except CommandFault State} {t : State} : s.finish r = .next t ↔ t = s.complete r := by
  simp [State.finish, eq_comm]

/-- The code of a fault is 1 to 10 (R260). -/
theorem errCode_range (f : CommandFault) : 1 ≤ f.errCode.toNat ∧ f.errCode.toNat ≤ 10 := by cases f <;> decide

/-- The comparison is equality of the two strings (R170). -/
theorem candidateMatches_iff :
    s.candidateMatches = true ↔ s.cand.bytes s.candLen.toNat = s.codestr.bytes s.strlen.toNat := by
  simp only [State.candidateMatches, Bool.and_eq_true, beq_iff_eq, List.all_eq_true, List.mem_range]
  constructor
  · rintro ⟨hl, h⟩
    rw [hl]
    exact Memory.bytes_congr h
  · intro h
    have hl : s.candLen.toNat = s.strlen.toNat := by simpa using congrArg List.length h
    refine ⟨BitVec.eq_of_toNat_eq hl, fun i hi => ?_⟩
    have := congrArg (fun b => byteAt b i) h
    simpa [byteAt_bytes _ hi, byteAt_bytes _ (show i < s.candLen.toNat by omega)] using this

end Sys2Proof.Machine
end

