-- ==== Sys2Proof/Laws/Exec.lean ====
section
/-! SUPPORT. What a command can do, said once: it takes a fault, or it makes exactly the writes of its rule. -/

namespace Sys2Proof.Machine

/-- The writes a command makes when it does not fault, each under the checks of its rule (spec files 41 to 45). -/
inductive CommandWrites (s : State) : Instr → State → Prop where
  | nop : CommandWrites s .nop s
  | clear : CommandWrites s .clear s.zeroize
  | keynorm {a : HashAlg} (ha : HashAlg.ofField s.alg = some a) (hs : s.secretLen.toNat ≤ 256) :
      CommandWrites s .keynorm (s.setKeyBlock a (normKey a s.secretBytes))
  | hmacctr {a : HashAlg} (ha : HashAlg.ofField s.alg = some a) (hk : s.keyvalid = true)
      (hc : s.ctr.toNat < 2 ^ 63) :
      CommandWrites s .hmacctr (s.setDigest a (hmac a (s.keyblk.bytes a.blockLen) (be64 s.ctr.toNat)))
  | extract (hd : s.DigestOk) : CommandWrites s .extract (s.setExtract s.digestBytes)
  | reduce (h1 : 1 ≤ s.digits.toNat) (h2 : s.digits.toNat ≤ 10) :
      CommandWrites s .reduce (s.setCode s.value.toNat s.digits.toNat)
  | render (h1 : 1 ≤ s.digits.toNat) (h2 : s.digits.toNat ≤ 10) (hc : s.code.toNat < 10 ^ s.digits.toNat) :
      CommandWrites s .render (s.setString s.code.toNat s.digits.toNat)
  | trunc (hd : s.DigestOk) (h1 : 1 ≤ s.digits.toNat) (h2 : s.digits.toNat ≤ 10) :
      CommandWrites s .trunc (s.setTrunc s.digestBytes s.digits.toNat)
  | compare (hs : s.strlen ≠ 0) : CommandWrites s .compare s.setMatch
  | hotpgen {a : HashAlg} (ha : HashAlg.ofField s.alg = some a) (hs : s.secretLen.toNat ≤ 256)
      (hc : s.ctr.toNat < 2 ^ 63) (h1 : 1 ≤ s.digits.toNat) (h2 : s.digits.toNat ≤ 10) :
      CommandWrites s .hotpgen (s.otpStages a s.secretBytes s.ctr.toNat s.digits.toNat)
  | hotpvfy {t : State} (h : CommandWrites s .hotpgen t) : CommandWrites s .hotpvfy t.setMatch
  | tstep (hp : s.period ≠ 0) (h0 : 0 ≤ s.timeStep) (hq : s.timeStep ≤ 2 ^ 63 - 1) :
      CommandWrites s .tstep (s.setTctr s.timeStep.toNat)
  | totpgen {a : HashAlg} (ha : HashAlg.ofField s.alg = some a) (hs : s.secretLen.toNat ≤ 256) (hp : s.period ≠ 0)
      (h0 : 0 ≤ s.timeStep) (hq : s.timeStep ≤ 2 ^ 63 - 1) (h1 : 1 ≤ s.digits.toNat) (h2 : s.digits.toNat ≤ 10) :
      CommandWrites s .totpgen
        ((s.setTctr s.timeStep.toNat).otpStages a s.secretBytes s.timeStep.toNat s.digits.toNat)
  | totpvfy {t : State} (h : CommandWrites s .totpgen t) : CommandWrites s .totpvfy t.setMatch

variable {s t : State}

theorem hotpGenerate_ok (h : s.hotpGenerate = .ok t) : CommandWrites s .hotpgen t := by
  simp only [State.hotpGenerate, except_bind_eq_ok, requireAlg_eq_ok, requireSecret_eq_ok, requireCounter_eq_ok,
    requireDigits_eq_ok] at h
  obtain ⟨a, ha, b, ⟨hs, rfl⟩, c, ⟨hc, rfl⟩, n, ⟨h1, h2, rfl⟩, h⟩ := h
  cases h
  exact .hotpgen ha hs hc h1 h2

theorem totpGenerate_ok (h : s.totpGenerate = .ok t) : CommandWrites s .totpgen t := by
  simp only [State.totpGenerate, except_bind_eq_ok, requireAlg_eq_ok, requireSecret_eq_ok, requireTimeStep_eq_ok,
    requireDigits_eq_ok] at h
  obtain ⟨a, ha, b, ⟨hs, rfl⟩, c, ⟨hp, h0, hq, rfl⟩, n, ⟨h1, h2, rfl⟩, h⟩ := h
  cases h
  exact .totpgen ha hs hp h0 hq h1 h2

/-- A finished command either took a fault or made the writes of its result. -/
theorem finish_cases {r : Except CommandFault State} (h : s.finish r = .next t) :
    (∃ f, r = .error f ∧ t = s.takeFault f) ∨ ∃ u, r = .ok u ∧ t = u.succeed := by
  rw [finish_eq_next] at h
  cases r with
  | error f => exact .inl ⟨f, rfl, h⟩
  | ok u => exact .inr ⟨u, rfl, h⟩

/-- What a command can do: take a fault, or make exactly the writes of its rule and complete (R53). -/
theorem exec_cases {i : Instr} (h : exec i s = .next t) :
    (∃ f, t = s.takeFault f) ∨ ∃ u, CommandWrites s i u ∧ t = u.succeed := by
  cases i
  all_goals
    simp only [exec, execNop, execClear, execKeynorm, execHmacctr, execExtract, execReduce, execRender, execTrunc,
      execCompare, execHotpgen, execHotpvfy, execTstep, execTotpgen, execTotpvfy] at h
    obtain ⟨f, -, rfl⟩ | ⟨u, hu, rfl⟩ := finish_cases h
    · exact .inl ⟨f, rfl⟩
    refine .inr ⟨u, ?_, rfl⟩
    try simp only [except_bind_eq_ok, requireAlg_eq_ok, requireSecret_eq_ok, requireKey_eq_ok, requireCounter_eq_ok,
      requireDigest_eq_ok, requireDigits_eq_ok, requireCode_eq_ok, requireString_eq_ok, requireTimeStep_eq_ok] at hu
  case nop => cases hu; exact .nop
  case clear => cases hu; exact .clear
  case keynorm => obtain ⟨a, ha, b, ⟨hs, rfl⟩, hu⟩ := hu; cases hu; exact .keynorm ha hs
  case hmacctr => obtain ⟨a, ha, b, ⟨hk, rfl⟩, c, ⟨hc, rfl⟩, hu⟩ := hu; cases hu; exact .hmacctr ha hk hc
  case extract => obtain ⟨d, ⟨hd, rfl⟩, hu⟩ := hu; cases hu; exact .extract hd
  case reduce => obtain ⟨n, ⟨h1, h2, rfl⟩, hu⟩ := hu; cases hu; exact .reduce h1 h2
  case render => obtain ⟨n, ⟨h1, h2, rfl⟩, c, ⟨hc, rfl⟩, hu⟩ := hu; cases hu; exact .render h1 h2 hc
  case trunc => obtain ⟨d, ⟨hd, rfl⟩, n, ⟨h1, h2, rfl⟩, hu⟩ := hu; cases hu; exact .trunc hd h1 h2
  case compare => obtain ⟨u', hs, hu⟩ := hu; cases hu; exact .compare hs
  case hotpgen => exact hotpGenerate_ok hu
  case hotpvfy => obtain ⟨w, hw, hu⟩ := hu; cases hu; exact .hotpvfy (hotpGenerate_ok hw)
  case tstep => obtain ⟨q, ⟨hp, h0, hq, rfl⟩, hu⟩ := hu; cases hu; exact .tstep hp h0 hq
  case totpgen => exact totpGenerate_ok hu
  case totpvfy => obtain ⟨w, hw, hu⟩ := hu; cases hu; exact .totpvfy (totpGenerate_ok hw)

/-- A command that passes the checks of its rule makes its writes and completes. -/
theorem exec_of_writes {i : Instr} {u : State} (h : CommandWrites s i u) : exec i s = .next u.succeed := by
  have e : ∀ {r : Except CommandFault State}, r = .ok u → s.finish r = .next u.succeed := by
    rintro r rfl; rfl
  have hotp : ∀ {v}, CommandWrites s .hotpgen v → s.hotpGenerate = .ok v := by
    rintro v ⟨⟩
    simp only [State.hotpGenerate, except_bind_eq_ok, requireAlg_eq_ok, requireSecret_eq_ok, requireCounter_eq_ok,
      requireDigits_eq_ok]
    exact ⟨_, ‹_›, _, ⟨‹_›, rfl⟩, _, ⟨‹_›, rfl⟩, _, ⟨‹_›, ‹_›, rfl⟩, rfl⟩
  have totp : ∀ {v}, CommandWrites s .totpgen v → s.totpGenerate = .ok v := by
    rintro v ⟨⟩
    simp only [State.totpGenerate, except_bind_eq_ok, requireAlg_eq_ok, requireSecret_eq_ok, requireTimeStep_eq_ok,
      requireDigits_eq_ok]
    exact ⟨_, ‹_›, _, ⟨‹_›, rfl⟩, _, ⟨‹_›, ‹_›, ‹_›, rfl⟩, _, ⟨‹_›, ‹_›, rfl⟩, rfl⟩
  cases h with
  | nop => rfl
  | clear => rfl
  | keynorm ha hs =>
    refine e ?_
    simp only [except_bind_eq_ok, requireAlg_eq_ok, requireSecret_eq_ok]
    exact ⟨_, ha, _, ⟨hs, rfl⟩, rfl⟩
  | hmacctr ha hk hc =>
    refine e ?_
    simp only [except_bind_eq_ok, requireAlg_eq_ok, requireKey_eq_ok, requireCounter_eq_ok]
    exact ⟨_, ha, _, ⟨hk, rfl⟩, _, ⟨hc, rfl⟩, rfl⟩
  | extract hd =>
    refine e ?_
    simp only [except_bind_eq_ok, requireDigest_eq_ok]
    exact ⟨_, ⟨hd, rfl⟩, rfl⟩
  | reduce h1 h2 =>
    refine e ?_
    simp only [except_bind_eq_ok, requireDigits_eq_ok]
    exact ⟨_, ⟨h1, h2, rfl⟩, rfl⟩
  | render h1 h2 hc =>
    refine e ?_
    simp only [except_bind_eq_ok, requireDigits_eq_ok, requireCode_eq_ok]
    exact ⟨_, ⟨h1, h2, rfl⟩, _, ⟨hc, rfl⟩, rfl⟩
  | trunc hd h1 h2 =>
    refine e ?_
    simp only [except_bind_eq_ok, requireDigest_eq_ok, requireDigits_eq_ok]
    exact ⟨_, ⟨hd, rfl⟩, _, ⟨h1, h2, rfl⟩, rfl⟩
  | compare hs =>
    refine e ?_
    simp only [except_bind_eq_ok, requireString_eq_ok]
    exact ⟨(), hs, rfl⟩
  | hotpgen ha hs hc h1 h2 => exact e (hotp (.hotpgen ha hs hc h1 h2))
  | hotpvfy h =>
    refine e ?_
    rw [except_bind_eq_ok]
    exact ⟨_, hotp h, rfl⟩
  | tstep hp h0 hq =>
    refine e ?_
    simp only [except_bind_eq_ok, requireTimeStep_eq_ok]
    exact ⟨_, ⟨hp, h0, hq, rfl⟩, rfl⟩
  | totpgen ha hs hp h0 hq h1 h2 => exact e (totp (.totpgen ha hs hp h0 hq h1 h2))
  | totpvfy h =>
    refine e ?_
    rw [except_bind_eq_ok]
    exact ⟨_, totp h, rfl⟩

/-- The fields no command reads or writes: `CTRL.IE` and the model's own three. -/
def State.withOutside (s : State) (ie : Bool) (q : List HostOp) (turns : List Agent) (rs : List Response) : State :=
  { s with ie := ie, hostQueue := q, schedule := turns, responses := rs }

/-- No command's Complete depends on what lies outside its operands (R104). -/
theorem exec_withOutside (i : Instr) {s t : State} (ie : Bool) (q : List HostOp) (turns : List Agent)
    (rs : List Response) (h : exec i s = .next t) :
    exec i (s.withOutside ie q turns rs) = .next (t.withOutside ie q turns rs) := by
  have key : ∀ r r' : Except CommandFault State,
      (r' = match r with | .ok u => .ok (u.withOutside ie q turns rs) | .error f => .error f) →
      s.finish r = .next t →
      (s.withOutside ie q turns rs).finish r' = .next (t.withOutside ie q turns rs) := by
    rintro r r' rfl h
    obtain ⟨f, rfl, rfl⟩ | ⟨u, rfl, rfl⟩ := finish_cases h <;> rfl
  have hotp : (s.withOutside ie q turns rs).hotpGenerate =
      match s.hotpGenerate with | .ok u => .ok (u.withOutside ie q turns rs) | .error f => .error f := by
    show (s.requireAlg >>= fun _ => s.requireSecret >>= fun _ => s.requireCounter >>= fun _ =>
      s.requireDigits >>= fun _ => _) = _
    unfold State.hotpGenerate
    cases s.requireAlg <;> cases s.requireSecret <;> cases s.requireCounter <;> cases s.requireDigits <;> rfl
  have totp : (s.withOutside ie q turns rs).totpGenerate =
      match s.totpGenerate with | .ok u => .ok (u.withOutside ie q turns rs) | .error f => .error f := by
    show (s.requireAlg >>= fun _ => s.requireSecret >>= fun _ => s.requireTimeStep >>= fun _ =>
      s.requireDigits >>= fun _ => _) = _
    unfold State.totpGenerate
    cases s.requireAlg <;> cases s.requireSecret <;> cases s.requireTimeStep <;> cases s.requireDigits <;> rfl
  cases i with
  | nop => exact key _ _ rfl h
  | clear => exact key _ _ rfl h
  | keynorm =>
    refine key _ _ ?_ h
    show (s.requireAlg >>= fun _ => s.requireSecret >>= fun _ => _) = _
    cases s.requireAlg <;> cases s.requireSecret <;> rfl
  | hmacctr =>
    refine key _ _ ?_ h
    show (s.requireAlg >>= fun a => s.requireKey a >>= fun _ => s.requireCounter >>= fun _ => _) = _
    cases s.requireAlg with
    | error f => rfl
    | ok a => cases hk : s.requireKey a <;> cases s.requireCounter <;> simp [bind, Except.bind, hk] <;> rfl
  | extract =>
    refine key _ _ ?_ h
    show (s.requireDigest >>= fun _ => _) = _
    cases s.requireDigest <;> rfl
  | reduce =>
    refine key _ _ ?_ h
    show (s.requireDigits >>= fun _ => _) = _
    cases s.requireDigits <;> rfl
  | render =>
    refine key _ _ ?_ h
    show (s.requireDigits >>= fun n => s.requireCode n >>= fun _ => _) = _
    cases s.requireDigits with
    | error f => rfl
    | ok n => cases hk : s.requireCode n <;> simp [bind, Except.bind, hk] <;> rfl
  | trunc =>
    refine key _ _ ?_ h
    show (s.requireDigest >>= fun _ => s.requireDigits >>= fun _ => _) = _
    cases s.requireDigest <;> cases s.requireDigits <;> rfl
  | compare =>
    refine key _ _ ?_ h
    show (s.requireString >>= fun _ => _) = _
    cases s.requireString <;> rfl
  | hotpgen => exact key _ _ hotp h
  | hotpvfy =>
    refine key _ _ ?_ h
    rw [hotp]
    cases s.hotpGenerate <;> rfl
  | tstep =>
    refine key _ _ ?_ h
    show (s.requireTimeStep >>= fun _ => _) = _
    cases s.requireTimeStep <;> rfl
  | totpgen => exact key _ _ totp h
  | totpvfy =>
    refine key _ _ ?_ h
    rw [totp]
    cases s.totpGenerate <;> rfl

end Sys2Proof.Machine
end

