-- ==== Sys2Proof/Laws/PerInstr.lean ====
section
/-! SUPPORT. Statements made for every command, one lemma per constructor. -/

namespace Sys2Proof.Laws.RoundTrip

/-- The command's word is legal in format `C`, and it decodes to the command (R100 to R103). -/
def Statement (i : Instr) : Prop :=
  decode (encode i) = .command i ∧ (CommandWord.ofWord (encode i)).wellFormed = true

theorem nop : Statement .nop := ⟨by decide, by decide⟩
theorem clear : Statement .clear := ⟨by decide, by decide⟩
theorem keynorm : Statement .keynorm := ⟨by decide, by decide⟩
theorem hmacctr : Statement .hmacctr := ⟨by decide, by decide⟩
theorem extract : Statement .extract := ⟨by decide, by decide⟩
theorem reduce : Statement .reduce := ⟨by decide, by decide⟩
theorem render : Statement .render := ⟨by decide, by decide⟩
theorem trunc : Statement .trunc := ⟨by decide, by decide⟩
theorem compare : Statement .compare := ⟨by decide, by decide⟩
theorem hotpgen : Statement .hotpgen := ⟨by decide, by decide⟩
theorem hotpvfy : Statement .hotpvfy := ⟨by decide, by decide⟩
theorem tstep : Statement .tstep := ⟨by decide, by decide⟩
theorem totpgen : Statement .totpgen := ⟨by decide, by decide⟩
theorem totpvfy : Statement .totpvfy := ⟨by decide, by decide⟩

end Sys2Proof.Laws.RoundTrip
end

