-- ==== Sys2Proof/Laws/Window.lean ====
section
/-! SUPPORT. The register window: the halves of 64-bit registers, the offset map, and what a register write
leaves alone (spec/20_memory.md rules R72 to R77). -/

namespace Sys2Proof.Machine

/-! ### Halves -/

theorem lowWord_toNat (v : DWord) : (lowWord v).toNat = v.toNat % 2 ^ 32 := by simp [lowWord]

theorem highWord_toNat (v : DWord) : (highWord v).toNat = v.toNat / 2 ^ 32 := by
  have := v.isLt
  simp only [highWord, BitVec.extractLsb'_toNat, Nat.shiftRight_eq_div_pow]
  omega

theorem append_toNat (h l : Word) : (h ++ l : DWord).toNat = h.toNat * 2 ^ 32 + l.toNat := by
  rw [BitVec.toNat_append, or_shift _ _ _ l.isLt]

theorem setLowWord_toNat (v : DWord) (w : Word) :
    (setLowWord v w).toNat = v.toNat / 2 ^ 32 * 2 ^ 32 + w.toNat := by
  rw [setLowWord, append_toNat, highWord_toNat]

theorem setHighWord_toNat (v : DWord) (w : Word) :
    (setHighWord v w).toNat = w.toNat * 2 ^ 32 + v.toNat % 2 ^ 32 := by
  rw [setHighWord, append_toNat, lowWord_toNat]

@[simp] theorem lowWord_setLowWord (v : DWord) (w : Word) : lowWord (setLowWord v w) = w := by
  apply BitVec.eq_of_toNat_eq
  rw [lowWord_toNat, setLowWord_toNat]; omega

@[simp] theorem highWord_setLowWord (v : DWord) (w : Word) : highWord (setLowWord v w) = highWord v := by
  apply BitVec.eq_of_toNat_eq
  rw [highWord_toNat, highWord_toNat, setLowWord_toNat]; omega

@[simp] theorem lowWord_setHighWord (v : DWord) (w : Word) : lowWord (setHighWord v w) = lowWord v := by
  apply BitVec.eq_of_toNat_eq
  rw [lowWord_toNat, lowWord_toNat, setHighWord_toNat]; omega

@[simp] theorem highWord_setHighWord (v : DWord) (w : Word) : highWord (setHighWord v w) = w := by
  apply BitVec.eq_of_toNat_eq
  rw [highWord_toNat, setHighWord_toNat]; omega

/-- The two halves make the whole (R77). -/
theorem setHighWord_setLowWord (x v : DWord) : setHighWord (setLowWord x (lowWord v)) (highWord v) = v := by
  apply BitVec.eq_of_toNat_eq
  rw [setHighWord, lowWord_setLowWord, append_toNat, lowWord_toNat, highWord_toNat]
  omega

/-! ### The offset map -/

/-- Every register is found at its offset (R47). -/
@[simp] theorem atOffset_offsetOf (r : Reg) : Reg.atOffset (Reg.offsetOf r) = some r := by
  have buffers : (∀ k : Fin 3, Reg.atOffset (Reg.offsetOf (.codestr k)) = some (.codestr k)) ∧
      (∀ k : Fin 4, Reg.atOffset (Reg.offsetOf (.cand k)) = some (.cand k)) ∧
      (∀ k : Fin 16, Reg.atOffset (Reg.offsetOf (.digest k)) = some (.digest k)) ∧
      ∀ k : Fin 64, Reg.atOffset (Reg.offsetOf (.secret k)) = some (.secret k) := by decide
  cases r with
  | codestr k => exact buffers.1 k
  | cand k => exact buffers.2.1 k
  | digest k => exact buffers.2.2.1 k
  | secret k => exact buffers.2.2.2 k
  | _ => rfl

/-! ### What a register write leaves alone -/

variable (s : State) (r : Reg) (v : Word)

@[simp] theorem State.writeReg_hostQueue : (s.writeReg r v).hostQueue = s.hostQueue := by
  cases r <;> simp only [State.writeReg] <;> (try split) <;> rfl

@[simp] theorem State.writeReg_schedule : (s.writeReg r v).schedule = s.schedule := by
  cases r <;> simp only [State.writeReg] <;> (try split) <;> rfl

@[simp] theorem State.writeReg_responses : (s.writeReg r v).responses = s.responses := by
  cases r <;> simp only [State.writeReg] <;> (try split) <;> rfl

/-- No host write reaches the hidden key block (R44, R81). -/
@[simp] theorem State.writeReg_keyblk : (s.writeReg r v).keyblk = s.keyblk := by
  cases r <;> simp only [State.writeReg] <;> (try split) <;> rfl

/-- Only a write to `CMD` starts a command (R52, R73). -/
theorem State.writeReg_busy : (s.writeReg r v).busy = (s.busy || r == .cmd) := by
  cases r <;> simp only [State.writeReg] <;> (try split) <;> simp [State.clearKeyValid]

/-! ### Transactions -/

variable {s}

theorem hostRead_open (r : Reg) (h : s.holds r = false) :
    s.hostRead (Reg.offsetOf r) = some (.okay, s.readReg r) := by simp [State.hostRead, h]

theorem hostWrite_open (r : Reg) (v : Word) (h : s.holds r = false) :
    s.hostWrite (Reg.offsetOf r) v = some (.okay, s.writeReg r v) := by simp [State.hostWrite, h]

theorem holds_idle (r : Reg) (h : s.busy = false) : s.holds r = false := by simp [State.holds, h]

/-- What a transaction can do: it is held on a closed register while a command runs; or it changes nothing; or
it is a word write to a mapped register (R72 to R75). -/
theorem transact_cases (s : State) (t : Transaction) :
    (s.transact t = none ∧ s.busy = true) ∨
      (∃ resp, s.transact t = some (resp, s)) ∨
      ∃ off r v, t = .write off v ∧ Reg.atOffset off = some r ∧ s.holds r = false ∧
        s.transact t = some (.write .okay, s.writeReg r v) := by
  cases t with
  | read off =>
    simp only [State.transact, State.hostRead]
    split
    · exact .inr (.inl ⟨_, rfl⟩)
    · split
      · next h => exact .inl ⟨rfl, by simp [State.holds] at h; exact h.1⟩
      · exact .inr (.inl ⟨_, rfl⟩)
  | write off v =>
    simp only [State.transact, State.hostWrite]
    split
    · exact .inr (.inl ⟨_, rfl⟩)
    · next r hr =>
      split
      · next h => exact .inl ⟨rfl, by simp [State.holds] at h; exact h.1⟩
      · next h => exact .inr (.inr ⟨off, r, v, rfl, hr, by simpa using h, rfl⟩)
  | readOther w off => exact .inr (.inl ⟨_, rfl⟩)
  | writeOther w off => exact .inr (.inl ⟨_, rfl⟩)

/-- With no command running nothing is held (R74). -/
theorem transact_idle (s : State) (t : Transaction) (h : s.busy = false) : ∃ p, s.transact t = some p := by
  obtain ⟨-, hb⟩ | ⟨resp, hr⟩ | ⟨_, _, _, _, _, _, hr⟩ := transact_cases s t
  · rw [h] at hb; cases hb
  · exact ⟨_, hr⟩
  · exact ⟨_, hr⟩

/-! ### The turns to come are outside the window -/

@[simp] theorem readReg_withSchedule (s : State) (turns : List Agent) (r : Reg) :
    (s.withSchedule turns).readReg r = s.readReg r := by cases r <;> rfl

@[simp] theorem writeReg_withSchedule (s : State) (turns : List Agent) (r : Reg) (v : Word) :
    (s.withSchedule turns).writeReg r v = (s.writeReg r v).withSchedule turns := by
  cases r <;> simp only [State.writeReg] <;> (try split) <;> rfl

/-- A transaction neither reads nor writes the turns to come (R72, R73). -/
theorem transact_withSchedule (s : State) (turns : List Agent) (t : Transaction) :
    (s.withSchedule turns).transact t = (s.transact t).map fun p => (p.1, p.2.withSchedule turns) := by
  cases t with
  | read off =>
    simp only [State.transact, State.hostRead]
    split
    · rfl
    · next r _ =>
      rw [show (s.withSchedule turns).holds r = s.holds r from rfl, readReg_withSchedule]
      split <;> rfl
  | write off v =>
    simp only [State.transact, State.hostWrite]
    split
    · rfl
    · next r _ =>
      rw [show (s.withSchedule turns).holds r = s.holds r from rfl, writeReg_withSchedule]
      split <;> rfl
  | readOther w off => rfl
  | writeOther w off => rfl

end Sys2Proof.Machine
end

