-- ==== Sys2Proof/Laws/Safety.lean ====
section
/-! SUPPORT. What it takes for a host transaction to be answered at once (spec/20_memory.md rules R72 to R74). -/

namespace Sys2Proof.Machine

variable {s : State} {off : Nat} {r : Reg}

/-- A read of a mapped register that is not held answers the register's word (R72). -/
theorem answersRead_of_register {value : Nat} (ho : Reg.atOffset off = some r) (hh : s.holds r = false)
    (hv : s.readReg r = BitVec.ofNat 32 value) : s.answersRead off value := by
  simp [State.answersRead, State.transact, State.hostRead, ho, hh, hv]

/-- A write to a mapped register that is not held leaves what the register's write leaves (R73). -/
theorem answersWrite_of_register {v : Word} {t : State} (ho : Reg.atOffset off = some r) (hh : s.holds r = false)
    (ht : s.writeReg r v = t) : s.answersWrite off v t := by
  simp [State.answersWrite, State.transact, State.hostWrite, ho, hh, ht]

/-- A register that stays open is never held (R74). -/
theorem holds_open (h : Reg.openWhileBusy r = true) : s.holds r = false := by simp [State.holds, h]

end Sys2Proof.Machine
end

