-- ==== Sys2Proof/Laws/Step.lean ====
section
/-! SUPPORT. What a step can do, said once: whose turn it is, and what each turn does (spec/10_state.md rules R50
to R53). -/

namespace Sys2Proof.Machine

/-- The engine's turn when idle (R51). -/
theorem engineTurn_idle {s : State} (h : s.busy = false) : s.engineTurn = .next s := by simp [State.engineTurn, h]

/-- The engine's turn on a legal word (R53). -/
theorem engineTurn_command {s : State} {i : Instr} (h : s.busy = true) (hd : decode s.lastcmd = .command i) :
    s.engineTurn = exec i s := by simp [State.engineTurn, h, hd]

/-- The engine's turn on an illegal word (R261). -/
theorem engineTurn_illegal {s : State} (h : s.busy = true) (hd : decode s.lastcmd = .illegal) :
    s.engineTurn = .next (s.takeFault .illcmd) := by simp [State.engineTurn, h, hd]

/-- What the engine's turn can do: nothing when idle; else take a fault, or make the writes of the latched
command's rule (R53). -/
theorem engineTurn_cases {s t : State} (h : s.engineTurn = .next t) :
    (s.busy = false ∧ t = s) ∨
      (s.busy = true ∧ ((∃ f, t = s.takeFault f) ∨
        ∃ i u, decode s.lastcmd = .command i ∧ CommandWrites s i u ∧ t = u.succeed)) := by
  unfold State.engineTurn at h
  split at h
  · next hb =>
    refine .inr ⟨hb, ?_⟩
    split at h
    · next i hd =>
      obtain ⟨f, rfl⟩ | ⟨u, hu, rfl⟩ := exec_cases h
      · exact .inl ⟨f, rfl⟩
      · exact .inr ⟨i, u, hd, hu, rfl⟩
    · exact .inl ⟨.illcmd, by injection h with h; exact h.symm⟩
  · next hb => exact .inl ⟨by simpa using hb, by injection h with h; exact h.symm⟩

/-- What the host's turn can do: nothing, when its queue is empty or its transaction is held; one operation that
changes no register; or one write to a mapped register that is not held (R71 to R75, R121). -/
theorem hostTurn_cases (s : State) :
    s.hostTurn = s ∨
      (∃ q resp, s.hostTurn = s.received q resp) ∨
      ∃ r v q resp, s.holds r = false ∧
        s.hostTurn = (s.writeReg r v).received q resp := by
  unfold State.hostTurn
  split
  · exact .inl rfl
  · next t rest hq =>
    obtain ⟨h, -⟩ | ⟨resp, h⟩ | ⟨off, r, v, -, -, hr, h⟩ := transact_cases s t
    · exact .inl (by simp [h])
    · exact .inr (.inl ⟨rest, resp, by simp [h]⟩)
    · exact .inr (.inr ⟨r, v, rest, .write .okay, hr, by simp [h]⟩)
  · exact .inr (.inl ⟨_, _, rfl⟩)

/-- What a step can do: the turn of the head of the schedule, else the engine's turn when a command runs and the
host's when none does (R51). -/
theorem step_cases {s t : State} (h : step s = .next t) :
    (∃ sch, s.schedule = .host :: sch ∧ t = (s.withSchedule sch).hostTurn) ∨
      (∃ sch, s.schedule = .engine :: sch ∧ (s.withSchedule sch).engineTurn = .next t) ∨
      (∃ sch, s.schedule = .reset :: sch ∧ t = (s.withSchedule sch).resetEngine) ∨
      (s.schedule = [] ∧ s.busy = true ∧ s.engineTurn = .next t) ∨
      (s.schedule = [] ∧ s.busy = false ∧ t = s.hostTurn) := by
  simp only [step, State.nextTurn] at h
  split at h
  · next sch hs => injection h with h; exact .inl ⟨sch, hs, h.symm⟩
  · next sch hs => exact .inr (.inl ⟨sch, hs, h⟩)
  · next sch hs => injection h with h; exact .inr (.inr (.inl ⟨sch, hs, h.symm⟩))
  · next hs =>
    split at h
    · next hb => exact .inr (.inr (.inr (.inl ⟨hs, hb, h⟩)))
    · next hb => injection h with h; exact .inr (.inr (.inr (.inr ⟨hs, by simpa using hb, h.symm⟩)))

/-! ### The step at each turn -/

theorem step_host {s : State} {sch : List Agent} (h : s.schedule = .host :: sch) :
    step s = .next (s.withSchedule sch).hostTurn := by simp [step, State.nextTurn, h]

theorem step_engine {s : State} {sch : List Agent} (h : s.schedule = .engine :: sch) :
    step s = (s.withSchedule sch).engineTurn := by simp [step, State.nextTurn, h]

theorem step_reset {s : State} {sch : List Agent} (h : s.schedule = .reset :: sch) :
    step s = .next (s.withSchedule sch).resetEngine := by simp [step, State.nextTurn, h]

theorem step_free_busy {s : State} (h : s.schedule = []) (hb : s.busy = true) : step s = s.engineTurn := by
  simp [step, State.nextTurn, h, hb]

theorem step_free_idle {s : State} (h : s.schedule = []) (hb : s.busy = false) : step s = .next s.hostTurn := by
  simp [step, State.nextTurn, h, hb]

/-- The host's turn with a transaction that is not held. -/
theorem hostTurn_access {s s' : State} {t : Transaction} {q : List HostOp} {resp : Response}
    (h : s.hostQueue = .access t :: q) (ht : s.transact t = some (resp, s')) :
    s.hostTurn = s'.received q resp := by simp [State.hostTurn, h, ht]

/-- The host's turn with a held transaction (R74). -/
theorem hostTurn_held {s : State} {t : Transaction} {q : List HostOp} (h : s.hostQueue = .access t :: q)
    (ht : s.transact t = none) : s.hostTurn = s := by simp [State.hostTurn, h, ht]

/-! ### Runs -/

@[simp] theorem run_zero (s : State) : Host.Core.run Sys2Proof.core 0 s = .next s := rfl

/-- A run of one step more, on any machine. -/
theorem core_run_succ (M : Host.Core) {s t : M.State} (n : Nat) (h : M.step s = .next t) :
    M.run (n + 1) s = M.run n t := by
  rw [Host.Core.run, h]

theorem run_succ {s t : State} (n : Nat) (h : step s = .next t) :
    Host.Core.run Sys2Proof.core (n + 1) s = Host.Core.run Sys2Proof.core n t :=
  core_run_succ Sys2Proof.core n h

end Sys2Proof.Machine
end

