-- ==== Sys2Proof/Tests/Slice0.lean ====
section
/-! SUPPORT. The model's own tests: ill-formed terms refused, command words written out from spec/30_encoding.md,
one-step tests whose expected results are rows of spec/95_test_vectors.md, spec/96_test_vectors_faults.md and
spec/97_test_vectors_pipelines.md (row names in the comments), and a witness for the hypotheses of every statement
that has some. -/

namespace Sys2Proof.Tests

open Sys2Proof.Machine

/-! ### Well-formedness: each check refuses an ill-formed term -/

theorem test_wf_reserved_bits : CommandWord.wellFormed ⟨1, 0x30⟩ = false := by decide
theorem test_wf_unassigned_opcode : CommandWord.wellFormed ⟨0, 0x32⟩ = false := by decide
theorem test_wf_legal_word : CommandWord.wellFormed ⟨0, 0x30⟩ = true := by decide
theorem test_wf_wr64_tctr : ScriptLine.wellFormed (.wr64 .tctr 0) = false := by decide
theorem test_wf_secret_too_long : ScriptLine.wellFormed (.loadSecret (zeros 257)) = false := by decide +kernel
theorem test_wf_digest_too_long : ScriptLine.wellFormed (.loadDigest (zeros 65)) = false := by decide
theorem test_wf_candidate_too_long : ScriptLine.wellFormed (.loadCand (zeros 17)) = false := by decide
theorem test_wf_string_too_long : ScriptLine.wellFormed (.expectStr (zeros 13)) = false := by decide

/-! ### Decoding: the words of rule R101, bit by bit -/

theorem test_decode_nop : decode 0b00000000000000000000000000000000 = .command .nop := by decide
theorem test_decode_clear : decode 0b00000000000000000000000000000001 = .command .clear := by decide
theorem test_decode_keynorm : decode 0b00000000000000000000000000010000 = .command .keynorm := by decide
theorem test_decode_hmacctr : decode 0b00000000000000000000000000010001 = .command .hmacctr := by decide
theorem test_decode_extract : decode 0b00000000000000000000000000100000 = .command .extract := by decide
theorem test_decode_reduce : decode 0b00000000000000000000000000100001 = .command .reduce := by decide
theorem test_decode_render : decode 0b00000000000000000000000000100010 = .command .render := by decide
theorem test_decode_trunc : decode 0b00000000000000000000000000100011 = .command .trunc := by decide
theorem test_decode_compare : decode 0b00000000000000000000000000100100 = .command .compare := by decide
theorem test_decode_hotpgen : decode 0b00000000000000000000000000110000 = .command .hotpgen := by decide
theorem test_decode_hotpvfy : decode 0b00000000000000000000000000110001 = .command .hotpvfy := by decide
theorem test_decode_tstep : decode 0b00000000000000000000000001000000 = .command .tstep := by decide
theorem test_decode_totpgen : decode 0b00000000000000000000000001000001 = .command .totpgen := by decide
theorem test_decode_totpvfy : decode 0b00000000000000000000000001000010 = .command .totpvfy := by decide

/-- Unassigned opcodes beside assigned ones, and a legal opcode with a reserved bit set (R103). -/
theorem test_decode_illegal :
    ([(0x2 : Word), 0x12, 0x1F, 0x25, 0x32, 0x43, 0xFF, 0x130, 0x80000000].all fun w => decode w == .illegal) = true := by
  decide

theorem test_decode_table_word : decodeTableWord 32 0x42 = some .totpvfy ∧ decodeTableWord 32 0x142 = none := by
  decide

/-! ### Hash functions (95 section 2; 40 rules R131 to R135) -/

/-- "abc". -/
def abc : Bytes := [0x61, 0x62, 0x63]

theorem test_sha1_abc : beNat (hash .sha1 abc) = 0xa9993e364706816aba3e25717850c26c9cd0d89d := by decide +kernel

theorem test_sha1_two_blocks :
    beNat (hash .sha1 (List.replicate 56 0x61)) = 0xc2db330f6083854c99d4b5bfb6e8f29f201be699 := by decide +kernel

theorem test_sha256_abc :
    beNat (hash .sha256 abc) = 0xba7816bf8f01cfea414140de5dae2223b00361a396177a9cb410ff61f20015ad := by
  decide +kernel

theorem test_sha512_abc :
    beNat (hash .sha512 abc) =
      0xddaf35a193617abacc417349ae20413112e6fa4e89a97ea20a9eeee64b55d39a2192992a274fc1a836ba3c23a3feebbd454d4423643ce80e2a9ac94fa54ca49f := by
  decide +kernel

/-! ### States for the one-step tests -/

/-- The state after, when the outcome is a next state. -/
def after : Host.Outcome State Fault Refusal → Option State
  | .next t => some t
  | .fault _ => none
  | .refused _ => none

/-- ASCII characters. -/
def ascii (l : List Nat) : Bytes := l.map fun n => BitVec.ofNat 8 (0x30 + n)

/-- The secret `S20`, "12345678901234567890". -/
def s20 : Bytes := ascii [1, 2, 3, 4, 5, 6, 7, 8, 9, 0, 1, 2, 3, 4, 5, 6, 7, 8, 9, 0]

/-- Reset, then `LOADSECRET S20`. -/
def keyed : State := { State.reset with secret := Memory.ofBytes s20, secretLen := 20 }

/-- `keyed`, then `CTR` and a candidate. -/
def trying (ctr : DWord) (cand : List Nat) : State :=
  { keyed with ctr := ctr, cand := Memory.ofBytes (ascii cand), candLen := BitVec.ofNat 8 cand.length }

/-- Reset, then a digest of this many bytes and this big-endian value. -/
def digested (len value : Nat) : State :=
  { State.reset with digest := Memory.ofBytes (beBytes len value), digestLen := BitVec.ofNat 8 len }

/-- The digest of row X1. -/
def x1 : State := digested 20 0x1f8698690e02ca16618550ef7f19da8e945b555a

/-- Reset, then `TIME`, `EPOCH` and `PERIOD`. -/
def timed (time epoch : DWord) (period : Word) : State :=
  { State.reset with time := time, epoch := epoch, period := period }

/-- The code string "755224" rendered, with a candidate. -/
def rendered (cand : List Nat) : State :=
  { trying 0 cand with codestr := Memory.ofBytes (ascii [7, 5, 5, 2, 2, 4]), strlen := 6 }

/-- A command with word `w` runs. -/
def running (s : State) (w : Word) : State := s.accept w

/-- The word `STATUS` reads as after a command. -/
def statusAfter (i : Instr) (s : State) : Option Word := (after (exec i s)).map fun t => t.readReg .status

/-! ### One step of each command -/

/-- Rule R250, example. -/
theorem test_nop_clears_match :
    statusAfter .nop ({ keyed with matched := true, done := true, keyvalid := true }.accept 0) = some 0x0000000A := by
  decide

/-- Rule R251, example. -/
theorem test_clear :
    (after (exec .clear (rendered [7]))).map (fun t =>
      (t.readReg .status, t.readReg .strlen, t.readReg (.codestr 0), t.secretLen, t.secret.bytes 4)) =
      some (0x00000002, 0, 0, 0, zeros 4) := by decide

/-- Rule R192, example. -/
theorem test_keynorm_short :
    (after (exec .keynorm keyed)).map (fun t => (t.keyblk.bytes 128, t.readReg .status)) =
      some (s20 ++ zeros 108, 0x0000000A) := by decide

/-- Rule R191, fourth case: 65 bytes are hashed. -/
theorem test_keynorm_long :
    (after (exec .keynorm { State.reset with
        secret := Memory.ofBytes ((List.range 65).map fun i => BitVec.ofNat 8 (i + 1)), secretLen := 65 })).map
      (fun t => (beNat (t.keyblk.bytes 20), (t.keyblk.bytes 128).drop 20)) =
      some (0x7059d434a3b628255c3ef8c892839ab3b91c4fe6, zeros 108) := by decide +kernel

/-- Rule R193, example. -/
theorem test_hmacctr :
    (after (exec .hmacctr { State.reset with keyblk := Memory.ofBytes s20, keyvalid := true })).map
      (fun t => (beNat (t.digest.bytes 20), t.digestLen, t.err)) =
      some (0xcc93cf18508d94934c64b65d8ba7667fb7cde4b0, 20, 0) := by decide +kernel

/-- Row F13: `E_NOKEY` before `E_CTRRANGE`. -/
theorem test_hmacctr_no_key : statusAfter .hmacctr { keyed with ctr := 0x8000000000000000 } = some 0x00000402 := by
  decide

/-- Row X1. -/
theorem test_extract :
    (after (exec .extract x1)).map (fun t => (t.offset, t.value, t.readReg .status)) =
      some (10, 0x50EF7F19, 0x00000002) := by decide

/-- Rows X8 and X9: the domain depends on the last byte. -/
theorem test_extract_domain :
    (after (exec .extract (digested 6 0xaabb80010202))).map (fun t => (t.offset, t.value)) = some (2, 0x00010202) ∧
      statusAfter .extract (digested 6 0xaabb80010203) = some 0x00000702 := by decide

/-- Rule R166, example, and ten digits. -/
theorem test_reduce :
    (after (exec .reduce { State.reset with value := 1357872921 })).map (fun t => t.code) = some 872921 ∧
      (after (exec .reduce { State.reset with value := 2147483647, digits := 10 })).map (fun t => t.code) =
        some 2147483647 := by decide

/-- Rule R167, example. -/
theorem test_render :
    (after (exec .render { State.reset with code := 872921 })).map (fun t =>
      (t.readReg (.codestr 0), t.readReg (.codestr 1), t.readReg (.codestr 2), t.strlen)) =
      some (0x39323738, 0x00003132, 0, 6) := by decide

/-- Rows F22 and F23. -/
theorem test_render_faults :
    statusAfter .render { State.reset with digits := 0, code := 1000000 } = some 0x00000802 ∧
      statusAfter .render { State.reset with code := 1000000 } = some 0x00000902 := by decide

/-- Rule R168, example. -/
theorem test_trunc :
    (after (exec .trunc x1)).map (fun t => (t.offset, t.value, t.code, t.codestr.bytes 12, t.strlen)) =
      some (10, 1357872921, 872921, ascii [8, 7, 2, 9, 2, 1] ++ zeros 6, 6) := by decide

/-- Row F20: `E_DIGLEN` before `E_DIGITS`. -/
theorem test_trunc_fault : statusAfter .trunc { State.reset with digits := 0 } = some 0x00000702 := by decide

/-- Rule R170, example: a match, and a shorter candidate. -/
theorem test_compare :
    statusAfter .compare (rendered [7, 5, 5, 2, 2, 4]) = some 0x00000006 ∧
      statusAfter .compare (rendered [7, 5, 5, 2, 2]) = some 0x00000002 := by decide

/-- Row F24. -/
theorem test_compare_no_string : statusAfter .compare State.reset = some 0x00000A02 := by decide

/-- Rule R210, example. -/
theorem test_hotpgen :
    (after (exec .hotpgen keyed)).map (fun t => (t.offset, t.value, t.code, t.codestr.bytes 6, t.readReg .status)) =
      some (0, 0x4C93CF18, 755224, ascii [7, 5, 5, 2, 2, 4], 0x0000000A) := by decide +kernel

/-- Row H11: SHA-256 and a counter of eight different bytes. -/
theorem test_hotpgen_sha256 :
    (after (exec .hotpgen { keyed with alg := 1, ctr := 0x0123456789ABCDEF })).map (fun t =>
      (t.offset, t.value, t.codestr.bytes 6)) = some (7, 0x4A694D67, ascii [4, 1, 5, 0, 7, 9]) := by decide +kernel

/-- Rows V1 and V2. -/
theorem test_hotpvfy :
    statusAfter .hotpvfy (trying 0 [7, 5, 5, 2, 2, 4]) = some 0x0000000E ∧
      statusAfter .hotpvfy (trying 0 [7, 5, 5, 2, 2, 5]) = some 0x0000000A := by decide +kernel

/-- Row V9. -/
theorem test_hotpvfy_fault : statusAfter .hotpvfy (trying 0x8000000000000000 [7, 5, 5, 2, 2, 4]) = some 0x00000602 := by
  decide

/-- Rows S11, S12, S17 and S21: truncation toward zero, a negative step, a negative epoch, a 65-bit difference. -/
theorem test_tstep :
    ([timed 0xFFFFFFFFFFFFFFE3 0 30, timed 0xFFFFFFFFFFFFFFE2 0 30, timed 0xFFFFFFFFFFFFFF9C 0xFFFFFFFFFFFFFF60 30,
        timed 0x7FFFFFFFFFFFFFFF 0x8000000000000000 2].map fun s =>
      (after (exec .tstep s)).map fun t => (t.tctr, t.err)) =
      [some (0, 0), some (0, 6), some (2, 0), some (0x7FFFFFFFFFFFFFFF, 0)] := by decide

/-- Row F17: `E_PERIOD` before `E_CTRRANGE`. -/
theorem test_tstep_period : statusAfter .tstep (timed 0xFFFFFFFFFFFFFF9C 0 0) = some 0x00000502 := by decide

/-- Row O2: eight digits with a leading zero. -/
theorem test_totpgen :
    (after (exec .totpgen { keyed with time := 1111111109, digits := 8 })).map (fun t =>
      (t.tctr, t.offset, t.codestr.bytes 8)) = some (37037036, 4, ascii [0, 7, 0, 8, 1, 8, 0, 4]) := by
  decide +kernel

/-- Row O26: SHA-512. -/
theorem test_totpgen_sha512 :
    (after (exec .totpgen { keyed with alg := 2, time := 1111111109 })).map (fun t => (t.offset, t.codestr.bytes 6)) =
      some (6, ascii [0, 4, 9, 3, 3, 8]) := by decide +kernel

/-- Rows V10 and V14. -/
theorem test_totpvfy :
    statusAfter .totpvfy { trying 7 [2, 8, 7, 0, 8, 2] with time := 59 } = some 0x0000000E ∧
      statusAfter .totpvfy { trying 7 [7, 5, 5, 2, 2, 4] with time := 0xFFFFFFFFFFFFFFFF } = some 0x0000000E := by
  decide +kernel

/-- Row F19. -/
theorem test_totpvfy_fault :
    statusAfter .totpvfy { State.reset with secretLen := 300, period := 0 } = some 0x00000302 := by decide

/-! ### The window (96 section 2) -/

/-- Rows 2, 3, 5, 9 and 11: write-only registers read 0, the reserved and misaligned offsets answer `ERROR`. -/
theorem test_reads :
    ([0x000, 0x004, 0x100, 0x078, 0x200, 0x05A].map keyed.hostRead) =
      [some (.okay, 0x474F5401), some (.okay, 0), some (.okay, 0), some (.error, 0), some (.error, 0),
        some (.error, 0)] := by decide

/-- Rows 20, 21, 25 and 26: the bits a register keeps. -/
theorem test_write_masks :
    ([(Reg.digits, (0xFFFFFF08 : Word)), (.value, 0xFFFFFFFF), (.alg, 0xFFFFFFFE), (.secretLen, 0x00010014)].map
      fun p => (keyed.writeReg p.1 p.2).readReg p.1) = [0x00000008, 0x7FFFFFFF, 2, 20] := by decide

/-- Rule R76, example: the secret "1234" is loaded by one word. -/
theorem test_lanes :
    ((State.reset.writeReg (.secret 0) 0x34333231).secret.bytes 5) = ascii [1, 2, 3, 4] ++ [0] := by decide

/-- Rule R261, example: an illegal word. -/
theorem test_illegal_word :
    (after (step (State.reset.withFetchWord 32 0x00000130))).map (fun t => (t.lastcmd, t.readReg .status)) =
      some (0x00000130, 0x00000102) := by decide

/-- A placed word is the command that the very next step runs. -/
theorem test_placed_word :
    (after (step (keyed.withFetchWord 32 0x10))).map (fun t => (t.lastcmd, t.readReg .status)) =
      some (0x00000010, 0x0000000A) := by decide

/-- `LOADSECRET` issues the writes of rule R121. -/
theorem test_loadsecret_ops :
    ScriptLine.ops (.loadSecret (ascii [1, 2, 3, 4, 5])) =
      [.access (.write 0x100 0x34333231), .access (.write 0x104 0x00000035), .access (.write 0x040 5)] := by
  decide

/-! ### Witnesses: concrete states that meet the hypotheses of the statements -/

/-- A host with one operation pending, at its turn, then the engine's and the host's. -/
def hosting (s : State) (t : Transaction) (turns : List Agent) : State :=
  { s with hostQueue := [.access t], schedule := turns }

/-- `BadAccessAnswersErrorAndChangesNothing`: offsets at the edges of each forbidden range. -/
theorem test_witness_bad_access :
    ∀ off ∈ [0x001, 0x078, 0x07C, 0x07F, 0x0C0, 0x0FC, 0x0FF, 0x200],
      (off % 4 ≠ 0 ∨ 0x200 ≤ off ∨ off = 0x078 ∨ off = 0x07C ∨ (0x0C0 ≤ off ∧ off ≤ 0x0FC)) := by decide

/-- `ReadsHaveNoSideEffects`, `WriteThenReadBack` and `WritesSetExactlyTheListedField`: an idle engine with a closed
register, and a busy one with an open register. -/
theorem test_witness_reads : keyed.busy = false ∧ (running keyed 0).busy = true ∧
    (Reg.lastcmd = .id ∨ Reg.lastcmd = .status ∨ Reg.lastcmd = .ctrl ∨ Reg.lastcmd = .lastcmd) := by decide

/-- `StepIsTheTurnOfTheNextAgent`: a transaction that is performed, one that is held, and each other kind of turn. -/
theorem test_witness_turns :
    ((hosting keyed (.read 0) [.host]).transact (.read 0)).isSome = true ∧
      (hosting (running keyed 0) (.read 4) [.host]).transact (.read 4) = none ∧
      (hosting keyed (.read 0) [.host]).schedule = [.host] ∧
      (hosting keyed (.read 0) [.host]).hostQueue = [.access (.read 0)] ∧
      (hosting keyed (.read 0) [.engine]).schedule = [.engine] ∧
      (hosting keyed (.read 0) [.reset]).schedule = [.reset] ∧ (running keyed 0).schedule = [] ∧
      keyed.schedule = [] := by decide

/-- `StepIsTheTurnOfTheNextAgent`: a `WAIT` at the host's turn, on an idle and on a busy engine, and a host turn with
nothing pending. -/
theorem test_witness_wait :
    { keyed with hostQueue := [.wait], schedule := [.host] }.hostQueue = [.wait] ∧ keyed.busy = false ∧
      (running { keyed with hostQueue := [.wait], schedule := [.host] } 0).busy = true ∧
      { keyed with schedule := [.host] }.hostQueue = [] := by decide

/-- `WriteThenReadBack` and `RegistersNeverAlias`. -/
theorem test_witness_registers :
    Reg.alg ≠ .cmd ∧ keyed.busy = false ∧ Reg.ctrHi ≠ Reg.ctrLo ∧ Reg.ctrHi ≠ .status ∧
      Reg.secret 63 ≠ Reg.secret 62 ∧ Reg.secret 62 ≠ .cmd ∧
      ((251 : Nat) < 4 * (63 : Fin 64).val ∧ 4 * (62 : Fin 64).val + 4 ≤ (252 : Nat)) ∧
      (∀ k, Reg.alg = .secret k → 255 < 4 * k.val ∨ 4 * k.val + 4 ≤ 255) := by decide

/-- `WritesSetExactlyTheListedField`: a `STATUS` write while a command runs, its two bit values, and the first and last
word of each buffer. -/
theorem test_witness_writes :
    (running keyed 0x30).busy = true ∧ (running keyed 0x30).done = false ∧ BitVec.getLsbD (0x2 : Word) 1 = true ∧
      BitVec.getLsbD (0xFFFFFFFD : Word) 1 = false ∧ keyed.busy = false ∧
      ((keyed.hostWrite 0x1FC 0x04030201).map fun p => (p.1, p.2.secret.bytes 256 |>.drop 251)) =
        some (.okay, [0, 1, 2, 3, 4]) := by decide

/-- A `STATUS` write of 1 to bit 1 while a command runs is answered and changes nothing (R309 (d)). -/
theorem test_status_write_while_busy :
    (running keyed 0x30).hostWrite 0x008 0xFFFFFFFF = some (.okay, running keyed 0x30) := by decide

/-- `HeldTransactionRunsAfterComplete`: a held `CMD` write and a held read, with the three turns laid down. -/
theorem test_witness_held :
    (running keyed 0x30).transact (.write 0x004 0x31) = none ∧
      (hosting (running keyed 0x30) (.read 0x058) [.host, .engine, .host]).transact (.read 0x058) = none ∧
      (hosting (running keyed 0x30) (.read 0x058) [.host, .engine, .host]).hostQueue = [.access (.read 0x058)] ∧
      (hosting (running keyed 0x30) (.read 0x058) [.host, .engine, .host]).schedule = [.host, .engine, .host] := by
  decide

/-- `AcceptLatchesAndClears` and `IllegalWordIsAcceptedThenFaults`. -/
theorem test_witness_accept : keyed.busy = false ∧ decode 0x130 = .illegal := by decide

/-- `StepRunsTheLatchedCommand`: with the engine's turn laid down, and with none. -/
theorem test_witness_step :
    (running keyed 0x30).busy = true ∧ decode (running keyed 0x30).lastcmd = .command .hotpgen ∧
      Instr.wellFormed .hotpgen = true ∧ (running keyed 0x30).schedule = [] ∧
      (hosting (running keyed 0x30) (.read 0) [.engine]).schedule = [.engine] := by decide

/-- `IdleEngineDoesNothing`. -/
theorem test_witness_idle :
    keyed.busy = false ∧ keyed.schedule = [] ∧ keyed.hostQueue = [] ∧
      (hosting keyed (.read 0) [.engine]).schedule = [.engine] := by decide

/-- `FaultsArePrecise` and `LowestApplicableFaultIsReported`: a command that ends with an error. -/
theorem test_witness_fault :
    (after (exec .compare State.reset)).map (fun t => t.err) = some 10 ∧ reportedFault .compare State.reset ≠ 0 := by
  decide

/-- `CommandsWriteOnlyTheirOperandTable` and the frames of `KEYVALID` and `irq`: a command that answers a next
state, and a command that every frame clause speaks of. -/
theorem test_witness_next :
    (after (exec .keynorm keyed)).isSome = true ∧ (after (exec .nop keyed)).isSome = true ∧ Instr.nop ≠ .clear ∧
      Instr.nop ∉ [Instr.clear, .keynorm, .hmacctr, .extract, .reduce, .render, .trunc, .compare, .hotpgen, .hotpvfy,
        .tstep, .totpgen, .totpvfy] := by decide

/-- `ClearLeavesNoTraceOfTheSecret`: two states that differ in the secret and what is derived from it. -/
theorem test_witness_clear :
    keyed.digits = State.reset.digits ∧ keyed.alg = State.reset.alg ∧ keyed.period = State.reset.period ∧
      keyed.epoch = State.reset.epoch ∧ keyed.ctr = State.reset.ctr ∧ keyed.time = State.reset.time ∧
      keyed.ie = State.reset.ie ∧ keyed.lastcmd = State.reset.lastcmd ∧ keyed.matched = State.reset.matched ∧
      keyed.hostQueue = State.reset.hostQueue ∧ keyed.schedule = State.reset.schedule ∧
      keyed.responses = State.reset.responses ∧ keyed ≠ State.reset := by decide

/-- `KeynormNormalizesTheSecret`: lengths at, and one above, the block; then each fault's condition at its edge. -/
theorem test_witness_keynorm :
    HashAlg.ofField keyed.alg = some .sha1 ∧ keyed.secretLen.toNat ≤ HashAlg.blockLen .sha1 ∧
      ({ keyed with secretLen := 64 }.secretLen.toNat ≤ HashAlg.blockLen .sha1) ∧
      (HashAlg.blockLen .sha1 < { keyed with secretLen := 65 }.secretLen.toNat) ∧
      ({ keyed with secretLen := 256 }.secretLen.toNat ≤ 256) ∧
      { keyed with alg := 3 }.alg = 3 ∧ keyed.alg ≠ 3 ∧ 256 < { keyed with secretLen := 257 }.secretLen.toNat := by
  decide

/-- `HmacctrComputesTheHmac`: the largest legal counter, no key, and the least counter that faults. -/
theorem test_witness_hmacctr :
    HashAlg.ofField keyed.alg = some .sha1 ∧ { keyed with keyvalid := true }.keyvalid = true ∧
      { keyed with ctr := 0x7FFFFFFFFFFFFFFF }.ctr.toNat < 2 ^ 63 ∧ keyed.keyvalid = false ∧
      2 ^ 63 ≤ { keyed with ctr := 0x8000000000000000 }.ctr.toNat := by decide

/-- `PaddingIsTheLeastThatFillsBlocks`. -/
theorem test_witness_padding : 0 < HashAlg.blockLen .sha1 ∧ (3 + 1 + 52 + 8) % 64 = 0 := by decide

/-- `ExtractSelectsFourBytes` and `TruncDoesTheWholeTruncation`: row X12, where the offset just fits, and X9, X15 and
X16, where it does not. -/
theorem test_witness_extract :
    (let s := digested 19 0x101112131415161718191a1b1c1d1e1f2021ff;
      s.digestLen.toNat = 19 ∧ (s.digest.read 18).toNat % 16 + 4 = 19 ∧ 1 ≤ s.digits.toNat ∧ s.digits.toNat ≤ 10) ∧
    (let s := digested 6 0xaabb80010203;
      s.digestLen.toNat = 6 ∧ 6 < (s.digest.read 5).toNat % 16 + 4) ∧
    { x1 with digestLen := 0 }.digestLen.toNat = 0 ∧ 64 < { x1 with digestLen := 65 }.digestLen.toNat ∧
    { x1 with digits := 0 }.digits.toNat = 0 ∧ 10 < { x1 with digits := 11 }.digits.toNat := by decide

/-- `ReduceTakesTheRemainder` and `RenderWritesDecimalDigits`: both ends of the digit range, and codes at `10^DIGITS`
and one below. -/
theorem test_witness_render :
    (∀ d ∈ [(1 : BitVec 8), 10], 1 ≤ { keyed with digits := d }.digits.toNat ∧ { keyed with digits := d }.digits.toNat ≤ 10) ∧
      { keyed with digits := 0 }.digits.toNat = 0 ∧ 10 < { keyed with digits := 11 }.digits.toNat ∧
      { keyed with code := 999999 }.code.toNat < 10 ^ keyed.digits.toNat ∧
      10 ^ keyed.digits.toNat ≤ { keyed with code := 1000000 }.code.toNat := by decide

/-- `PublishedHotpVectors`: one of the three. -/
theorem test_witness_vectors :
    ((9 : DWord), ascii [5, 2, 0, 4, 8, 9]) ∈ [((0 : DWord), ascii [7, 5, 5, 2, 2, 4]), (9, ascii [5, 2, 0, 4, 8, 9])] := by
  decide

/-- `CodeStringDenotesCode`: a command that renders without a fault. -/
theorem test_witness_code_string :
    Instr.render ∈ [Instr.render, .trunc, .hotpgen, .hotpvfy, .totpgen, .totpvfy] ∧
    (after (exec .render { State.reset with code := 7 })).map (fun t => t.err) = some 0 := by decide

/-- `TruncIsExtractReduceRender`: the three commands one after the other, none faulting. -/
theorem test_witness_trunc_steps :
    ((after (exec .extract x1)).bind fun a => (after (exec .reduce a)).bind fun b =>
      (after (exec .render b)).map fun c => (a.err, b.err, c.err)) = some (0, 0, 0) := by decide

/-- `TruncDependsOnDigestAndDigitsOnly`: two states that agree on the digest and differ elsewhere. -/
theorem test_witness_trunc_pure :
    x1.digestLen = { x1 with code := 5, alg := 3 }.digestLen ∧
      (∀ k, k < x1.digestLen.toNat → x1.digest.read k = { x1 with code := 5, alg := 3 }.digest.read k) ∧
      x1.digits = { x1 with code := 5, alg := 3 }.digits ∧
      (after (exec .trunc x1)).map (fun t => t.err) = some 0 ∧
      (after (exec .trunc { x1 with code := 5, alg := 3 })).isSome = true := by decide

/-- `CompareIsStringEquality`: with and without a code string. -/
theorem test_witness_compare : (rendered [7]).strlen ≠ 0 ∧ State.reset.strlen = 0 := by decide

/-- `HotpgenGeneratesTheCode` and `HotpvfyMatchesExactlyTheCode`: legal operands at their bounds, and each fault's
condition at its edge. -/
theorem test_witness_hotpgen :
    (let s := { keyed with alg := 2, secretLen := 256, ctr := 0x7FFFFFFFFFFFFFFF, digits := 10 };
      HashAlg.ofField s.alg = some .sha512 ∧ s.secretLen.toNat ≤ 256 ∧ s.ctr.toNat < 2 ^ 63 ∧ 1 ≤ s.digits.toNat ∧
        s.digits.toNat ≤ 10) ∧
    { keyed with alg := 3 }.alg = 3 ∧ keyed.alg ≠ 3 ∧ 256 < { keyed with secretLen := 257 }.secretLen.toNat ∧
    2 ^ 63 ≤ { keyed with ctr := 0x8000000000000000 }.ctr.toNat ∧ { keyed with digits := 0 }.digits.toNat = 0 ∧
    10 < { keyed with digits := 11 }.digits.toNat ∧
    (after (exec .hotpgen { keyed with digits := 11 })).map (fun t => t.err) = some 8 := by decide

/-- `VerifyAcceptsExactlyTheGeneratedCode` and `HotpgenIsDeterminedByItsOperands`: a `HOTPGEN` that does not fault, from
two states that agree on its operands and differ elsewhere. -/
theorem test_witness_determined :
    (after (exec .hotpgen keyed)).map (fun t => t.err) = some 0 ∧
      (after (exec .hotpgen (rendered [7]))).map (fun t => t.err) = some 0 ∧
      keyed.alg = (rendered [7]).alg ∧ keyed.secretLen = (rendered [7]).secretLen ∧
      (∀ k, k < keyed.secretLen.toNat → keyed.secret.read k = (rendered [7]).secret.read k) ∧
      keyed.ctr = (rendered [7]).ctr ∧ keyed.digits = (rendered [7]).digits := by decide

/-- `TstepTruncatesTowardZero`, `TotpgenGeneratesTheCode` and `TotpvfyMatchesExactlyTheCode`: quotients at both ends of
the range, just outside them (rows S11, S12, S18, S19), and a zero period. -/
theorem test_witness_tstep :
    (let q := fun s : State => (s.time.toInt - s.epoch.toInt).tdiv s.period.toNat;
      q (timed 0xFFFFFFFFFFFFFFE3 0 30) = 0 ∧ q (timed 0xFFFFFFFFFFFFFFE2 0 30) = -1 ∧
      q (timed 0x7FFFFFFFFFFFFFFF 0 1) = 2 ^ 63 - 1 ∧ q (timed 0x7FFFFFFFFFFFFFFF 0xFFFFFFFFFFFFFFFF 1) = 2 ^ 63) ∧
    (timed 0 0 1).period ≠ 0 ∧ (timed 0 0 0).period = 0 ∧ HashAlg.ofField (timed 0 0 1).alg = some .sha1 ∧
    (timed 0 0 1).secretLen.toNat ≤ 256 ∧ 1 ≤ (timed 0 0 1).digits.toNat ∧ (timed 0 0 1).digits.toNat ≤ 10 ∧
    (after (exec .totpgen (timed 0 0 0))).map (fun t => t.err) = some 5 := by decide

/-- `TotpIsHotpOfTheTimeStep`: a `TOTPGEN` that does not fault. -/
theorem test_witness_totp :
    (after (exec .totpgen { keyed with time := 59 })).map (fun t => t.err) = some 0 := by decide

/-- `InterruptFollowsDone`: a `STATUS` word with bit 1 set, and a running engine with a legal and an illegal word. -/
theorem test_witness_flags :
    BitVec.getLsbD (0x2 : Word) 1 = true ∧ (running keyed 0x30).busy = true ∧ (running keyed 0x130).busy = true ∧
      decode (running keyed 0x130).lastcmd = .illegal := by decide

/-- `ResetAbandonsTheCommandAndReleasesTheHold`: a held `CMD` write and a reset in the middle of a command. -/
theorem test_witness_reset :
    (let s := hosting (running keyed 0x30) (.write 0x004 0x31) [.host, .reset, .host];
      s.transact (.write 0x004 0x31) = none ∧ s.hostQueue = [.access (.write 0x004 0x31)] ∧
        s.schedule = [.host, .reset, .host]) := by decide

/-- A state with a rendered string, a valid key block and a command running. -/
def busyState : State :=
  running { rendered [7] with keyblk := Memory.ofBytes s20, keyvalid := true, tctr := 0x7FFFFFFFFFFFFFFF } 0x30

/-- `EveryStepKeepsTheInvariant` and `EveryStepKeepsBuffersCanonical`: a state far from reset that has the invariant. -/
theorem test_witness_invariant : busyState.Inv := by
  refine ⟨by decide, by decide, ⟨by decide, by decide, fun i hi => ?_⟩,
    fun _ => ⟨.sha1, by decide⟩, by unfold State.TctrInRange; decide⟩
  show Memory.read (Memory.ofBytes _) i = 0
  rw [Memory.read_ofBytes]
  exact byteAt_of_le hi

/-- The step from that state answers a next state. -/
theorem test_witness_invariant_step : (after (step busyState)).isSome = true := by decide

/-- `SecretIsNotReadable`: two states that differ in the secret and the key block. -/
theorem test_witness_secret :
    keyed.sameButSecret { keyed with secret := Memory.zero, keyblk := Memory.ofBytes s20 } := rfl

/-- The end of a run of `n` steps. -/
def ended (n : Nat) (s : State) : Option Bool := (after (Host.Core.run Sys2Proof.core n s)).map State.finished

/-- `FinishedRunsDoNotDependOnLatency`: a `NOP`, then a read of `CODE`, with the completion before the host's second
turn and after it; both runs finish. -/
def latencyState (turns : List Agent) : State :=
  { State.reset with hostQueue := [.access (.write 0x004 0), .access (.read 0x050)], schedule := turns }

theorem test_witness_latency :
    (latencyState [.host, .engine, .host]).sameButSchedule (latencyState [.host, .host, .engine]) ∧
      Agent.reset ∉ (latencyState [.host, .engine, .host]).schedule ∧
      Agent.reset ∉ (latencyState [.host, .host, .engine]).schedule ∧
      (∀ op ∈ (latencyState [.host, .engine, .host]).hostQueue, HostOp.avoidsStatus op = true) ∧
      ended 3 (latencyState [.host, .engine, .host]) = some true ∧
      ended 4 (latencyState [.host, .host, .engine]) = some true :=
  ⟨rfl, by decide, by decide, by decide, by decide, by decide⟩

/-- `PendingOperationsFinish`: two operations pending and a command running, in five steps. -/
theorem test_witness_pending :
    (latencyState []).schedule = [] ∧ 2 * (latencyState []).hostQueue.length + 1 ≤ 5 := by decide

/-- `LoadsecretLoadsTheSecret`: the empty secret, one of 20 bytes and the longest. -/
theorem test_witness_loadsecret :
    (∀ bs ∈ [[], s20, zeros 256], (ScriptLine.loadSecret bs).wellFormed = true) ∧
      { State.reset with hostQueue := ScriptLine.ops (.loadSecret s20) }.busy = false ∧
      { State.reset with hostQueue := ScriptLine.ops (.loadSecret s20) }.schedule = [] := by decide +kernel

end Sys2Proof.Tests
end

section
/-! Accept: the host write to `CMD` on an idle engine (spec/10_state.md rule R52). -/

namespace Sys2Proof.Proofs

open Sys2Proof.Machine

/-- An idle engine holds no transaction (R74), so the write to `CMD` is performed at once, and it is the Accept. -/
theorem hostWrite_cmd_of_idle {s : State} (hidle : s.busy = false) (w : Word) :
    s.hostWrite (Reg.offsetOf .cmd) w = some (.okay, s.accept w) :=
  hostWrite_open .cmd w (holds_idle .cmd hidle)

/-- Settles O14: `0x004` is the offset of `CMD` (R47), and the state in the statement is `State.accept` written out. -/
theorem acceptLatchesAndClears : Obligations.AcceptLatchesAndClears := by
  intro s w hidle
  exact hostWrite_cmd_of_idle hidle w

end Sys2Proof.Proofs
end

section
/-! Buffer words: their byte lanes, in both directions (spec/20_memory.md rule R76). -/

namespace Sys2Proof.Proofs

open Sys2Proof.Machine

/-- A byte appended below moves the rest up by one lane. -/
theorem append_byte_toNat {n : Nat} (w : BitVec n) (b : Byte) :
    (w ++ b).toNat = w.toNat * 2 ^ 8 + b.toNat := by
  rw [BitVec.toNat_append, or_shift _ _ _ b.isLt]

theorem packWord_toNat (b0 b1 b2 b3 : Byte) :
    (packWord b0 b1 b2 b3).toNat = b0.toNat + b1.toNat * 2 ^ 8 + b2.toNat * 2 ^ 16 + b3.toNat * 2 ^ 24 := by
  rw [packWord, append_byte_toNat, append_byte_toNat, append_byte_toNat]
  omega

theorem lane_toNat (v : Word) (j : Nat) : (lane v j).toNat = v.toNat / 2 ^ (8 * j) % 256 := by
  simp [lane, Nat.shiftRight_eq_div_pow]

theorem bufferWord_toNat (m : Memory) (k : Nat) : (m.word k).toNat = m.lanesValue k :=
  packWord_toNat _ _ _ _

theorem setWord_hasLanes (m : Memory) (k : Nat) (v : Word) : (m.setWord k v).hasLanes m k v := by
  intro a
  rw [Memory.read_setWord]
  by_cases inWord : a / 4 = k
  · have laneIndex : a % 4 = a - 4 * k := by omega
    rw [if_pos inWord, if_pos (by omega), lane_toNat, laneIndex]
  · rw [if_neg inWord, if_neg (by omega)]

/-- Settles O10: the sum of four bytes is `Memory.lanesValue` written out, and what a word write leaves is
`Memory.hasLanes`. -/
theorem bufferWordsAreLittleEndianLanes : Obligations.BufferWordsAreLittleEndianLanes := by
  intro m k
  exact ⟨bufferWord_toNat m k, setWord_hasLanes m k⟩

end Sys2Proof.Proofs
end

section
/-! The 64-bit registers as two words each (spec/20_memory.md rule R77). -/

namespace Sys2Proof.Proofs

open Sys2Proof.Machine

/-- Settles O11: a `_LO` or `_HI` read is one half of the register, and a write replaces one half, so each part is
the value of an operation on halves. `TCTR` has the reads only, being read-only to the host (R73). -/
theorem sixtyFourBitRegistersAreTwoHalves : Obligations.SixtyFourBitRegistersAreTwoHalves := by
  intro s v
  refine ⟨⟨?ctrLo, ?ctrHi, ?timeLo, ?timeHi, ?epochLo, ?epochHi, ?tctrLo, ?tctrHi⟩,
    ?setCtrLo, ?setCtrHi, ?setTimeLo, ?setTimeHi, ?setEpochLo, ?setEpochHi⟩
  case ctrLo | timeLo | epochLo | tctrLo => exact lowWord_toNat _
  case ctrHi | timeHi | epochHi | tctrHi => exact highWord_toNat _
  case setCtrLo | setTimeLo | setEpochLo => exact setLowWord_toNat _ v
  case setCtrHi | setTimeHi | setEpochHi => exact setHighWord_toNat _ v

end Sys2Proof.Proofs
end

section
/-! The checks of a command, one after the other: the first that fails is the command's fault (spec/60_exceptions.md
rules R262, R264). -/

namespace Sys2Proof.Proofs

open Sys2Proof.Machine

variable {α : Type} {s : State} {x : Except CommandFault α} {rest : α → Except CommandFault State}

/-- A check that fails ends the command, which changes what rule R262 lists and nothing else. -/
theorem finish_check_error {f : CommandFault} (h : x = .error f) :
    s.finish (x >>= rest) = .next (s.faultedWith f.errCode) := by
  subst h
  rfl

/-- A check that passes leaves the command to the checks and writes after it. -/
theorem finish_check_ok {a : α} (h : x = .ok a) : s.finish (x >>= rest) = s.finish (rest a) := by
  subst h
  rfl

end Sys2Proof.Proofs
end

section
/-! The writes of the truncation's stages, in the registers they go to (spec/41_truncation.md rules R160 to R168). -/

namespace Sys2Proof.Proofs

open Sys2Proof.Machine

variable (s : State)

/-! ### `OFFSET` and `VALUE`, from the digest -/

section Digest

variable {s : State} {n o : Nat} (hn : n = s.digestLen.toNat) (ho : o = (s.digest.read (n - 1)).toNat % 16)
include hn ho

theorem eq_dtOffset (h1 : 1 ≤ n) : o = dtOffset s.digestBytes := by
  subst hn ho
  exact (dtOffset_digestBytes h1).symm

/-- The domain of the truncation in the digest register's own terms (R161). -/
theorem digestOk_iff : s.DigestOk ↔ 1 ≤ n ∧ n ≤ 64 ∧ o + 4 ≤ n := by
  subst hn
  refine and_congr_right fun nonEmpty => ?_
  rw [eq_dtOffset rfl ho nonEmpty]

theorem requireDigest_eq_error_of_outside (houtside : n = 0 ∨ 64 < n ∨ n < o + 4) :
    s.requireDigest = .error .digLen := by
  refine requireDigest_eq_error.2 ⟨?_, rfl⟩
  rw [digestOk_iff hn ho]
  omega

end Digest

/-- The 31-bit value is the four bytes as one word, the most significant first, without its top bit (R111). -/
theorem ofNat_dtValueAt (d : Bytes) (o : Nat) :
    BitVec.ofNat 31 (dtValueAt d o) =
      (packWord (byteAt d (o + 3)) (byteAt d (o + 2)) (byteAt d (o + 1)) (byteAt d o)).setWidth 31 := by
  apply BitVec.eq_of_toNat_eq
  rw [BitVec.toNat_ofNat, BitVec.toNat_setWidth, packWord_toNat, dtValueAt_sum]
  omega

/-- The value of a digest in the domain, read from the digest register: the four bytes lie below `DIGEST_LEN`. -/
theorem ofNat_dtValue_digestBytes {s : State} {o : Nat} (ho : o = dtOffset s.digestBytes) (hd : s.DigestOk) :
    BitVec.ofNat 31 (dtValue s.digestBytes) =
      (s.digest.read o ++ s.digest.read (o + 1) ++ s.digest.read (o + 2) ++
        s.digest.read (o + 3) : BitVec 32).setWidth 31 := by
  obtain ⟨-, -, fits⟩ := hd
  rw [← ho] at fits
  have inDigest : ∀ i, i < o + 4 → byteAt s.digestBytes i = s.digest.read i := fun i hi =>
    byteAt_bytes s.digest (by omega)
  rw [dtValue, ← ho, ofNat_dtValueAt, inDigest o (by omega), inDigest (o + 1) (by omega),
    inDigest (o + 2) (by omega), inDigest (o + 3) (by omega), packWord]

/-! ### `CODE` -/

theorem setCode_code_toNat {v : Nat} (n : Nat) (hv : v < 2 ^ 32) : (s.setCode v n).code.toNat = v % 10 ^ n :=
  (BitVec.toNat_ofNat _ _).trans (Nat.mod_eq_of_lt ((reduceCode_le v n).trans_lt hv))

/-! ### `CODESTR` and `STRLEN` -/

theorem setString_digit (code : Nat) {n i : Nat} (hi : i < n) :
    ((s.setString code n).codestr.read i).toNat = 0x30 + code / 10 ^ (n - 1 - i) % 10 := by
  rw [State.setString_codestr, Memory.read_ofBytes, byteAt_append_zeros, byteAt_dec_toNat code hi]

theorem setString_tail (code : Nat) {n i : Nat} (hi : n ≤ i) : (s.setString code n).codestr.read i = 0 := by
  rw [State.setString_codestr, Memory.read_ofBytes, byteAt_append_zeros, byteAt_of_le (by rwa [dec_length])]

/-- With the digit count taken from `DIGITS`, `STRLEN` becomes `DIGITS`: both registers have 8 bits (R26, R39). -/
theorem setString_digits (code : Nat) :
    s.setString code s.digits.toNat =
      { s with codestr := (s.setString code s.digits.toNat).codestr, strlen := s.digits } := by
  ext1 <;> simp

/-! ### The whole truncation -/

theorem setTrunc_offset_toNat (d : Bytes) (n : Nat) : (s.setTrunc d n).offset.toNat = dtOffset d :=
  (BitVec.toNat_ofNat _ _).trans (Nat.mod_eq_of_lt (dtOffset_lt d))

theorem setTrunc_value_toNat (d : Bytes) (n : Nat) : (s.setTrunc d n).value.toNat = dtValue d :=
  (BitVec.toNat_ofNat _ _).trans (Nat.mod_eq_of_lt (dtValue_lt d))

theorem setTrunc_code_toNat (d : Bytes) (n : Nat) : (s.setTrunc d n).code.toNat = dtValue d % 10 ^ n :=
  setCode_code_toNat (s.setExtract d) n ((dtValue_lt d).trans (by decide))

/-- The characters written are the digits of the code written with them (R168). -/
theorem setTrunc_digit (d : Bytes) {n i : Nat} (hi : i < n) :
    ((s.setTrunc d n).codestr.read i).toNat =
      0x30 + (s.setTrunc d n).code.toNat / 10 ^ (n - 1 - i) % 10 := by
  rw [setTrunc_code_toNat]
  exact setString_digit ((s.setExtract d).setCode (dtValue d) n) _ hi

theorem setTrunc_tail (d : Bytes) {n i : Nat} (hi : n ≤ i) : (s.setTrunc d n).codestr.read i = 0 :=
  setString_tail ((s.setExtract d).setCode (dtValue d) n) _ hi

/-- With the digit count taken from `DIGITS`, the five results are all that the truncation writes (R168). -/
theorem setTrunc_digits (d : Bytes) :
    s.setTrunc d s.digits.toNat =
      { s with
        offset := (s.setTrunc d s.digits.toNat).offset, value := (s.setTrunc d s.digits.toNat).value
        code := (s.setTrunc d s.digits.toNat).code, codestr := (s.setTrunc d s.digits.toNat).codestr
        strlen := s.digits } :=
  setString_digits ((s.setExtract d).setCode (dtValue d) s.digits.toNat) _

end Sys2Proof.Proofs
end

section
/-! `EXTRACT`, `REDUCE`, `RENDER`, `TRUNC` and `COMPARE`: each makes its writes on legal operands and takes the fault
of its first failing check otherwise (spec/41_truncation.md rules R165 to R168, R170). -/

namespace Sys2Proof.Proofs

open Sys2Proof.Machine

/-- Settles O30: on a digest in the domain (R161) the two writes are those of `State.setExtract`; outside it the only
check fails. -/
theorem extractSelectsFourBytes : Obligations.ExtractSelectsFourBytes := by
  intro s n o hn ho
  refine ⟨fun h1 h64 hfits => ?legal, fun houtside => ?badDigest⟩
  case legal =>
    have hd := (digestOk_iff hn ho).2 ⟨h1, h64, hfits⟩
    have hoffset : o = dtOffset s.digestBytes := eq_dtOffset hn ho h1
    rw [exec_of_writes (.extract hd), ← ofNat_dtValue_digestBytes hoffset hd, hoffset]
    rfl
  case badDigest =>
    exact finish_check_error (requireDigest_eq_error_of_outside hn ho houtside)

/-- Settles O31: the remainder fits `CODE`, as it is at most `VALUE`, which has 31 bits. -/
theorem reduceTakesTheRemainder : Obligations.ReduceTakesTheRemainder := by
  intro s
  refine ⟨fun h1 h10 => ⟨_, exec_of_writes (.reduce h1 h10), ?remainder, rfl⟩, fun hdigits => ?badDigits⟩
  case remainder => exact setCode_code_toNat s _ (s.value.isLt.trans (by decide))
  case badDigits => exact finish_check_error (requireDigits_eq_error.2 ⟨hdigits, rfl⟩)

/-- Settles O32: the string is that of `State.setString`; the check of `DIGITS` comes before that of `CODE`. -/
theorem renderWritesDecimalDigits : Obligations.RenderWritesDecimalDigits := by
  intro s
  refine ⟨fun h1 h10 hcode => ⟨_, exec_of_writes (.render h1 h10 hcode), ?frame,
      fun _ => setString_digit s _, fun _ => setString_tail s _⟩,
    fun hdigits => ?badDigits, fun h1 h10 hcode => ?badCode⟩
  case frame => exact congrArg State.succeed (setString_digits s _)
  case badDigits => exact finish_check_error (requireDigits_eq_error.2 ⟨hdigits, rfl⟩)
  case badCode =>
    exact (finish_check_ok (requireDigits_eq_ok.2 ⟨h1, h10, rfl⟩)).trans
      (finish_check_error (requireCode_eq_error.2 ⟨hcode, rfl⟩))

/-- Settles O34: `State.setTrunc` makes the writes of the three stages one after the other, so each result is its
stage's; the check of the digest comes before that of `DIGITS`, and both before the writes. -/
theorem truncDoesTheWholeTruncation : Obligations.TruncDoesTheWholeTruncation := by
  intro s n o hn ho
  refine ⟨fun h1 h64 hfits hdigits1 hdigits10 => ?legal, fun houtside => ?badDigest,
    fun h1 h64 hfits hdigits => ?badDigits⟩
  case legal =>
    have hd := (digestOk_iff hn ho).2 ⟨h1, h64, hfits⟩
    have hoffset : o = dtOffset s.digestBytes := eq_dtOffset hn ho h1
    refine ⟨_, exec_of_writes (.trunc hd hdigits1 hdigits10), ?frame, ?offset,
      ofNat_dtValue_digestBytes hoffset hd, ?code, fun _ => setTrunc_digit s _, fun _ => setTrunc_tail s _⟩
    case frame => exact congrArg State.succeed (setTrunc_digits s _)
    case offset => rw [State.succeed_offset, setTrunc_offset_toNat, hoffset]
    case code => rw [State.succeed_code, State.succeed_value, setTrunc_code_toNat, setTrunc_value_toNat]
  case badDigest =>
    exact finish_check_error (requireDigest_eq_error_of_outside hn ho houtside)
  case badDigits =>
    exact (finish_check_ok (requireDigest_eq_ok.2 ⟨(digestOk_iff hn ho).2 ⟨h1, h64, hfits⟩, rfl⟩)).trans
      (finish_check_error (requireDigits_eq_error.2 ⟨hdigits, rfl⟩))

/-- Settles O37: the comparison the engine makes is equality of the two strings (`candidateMatches_iff`). -/
theorem compareIsStringEquality : Obligations.CompareIsStringEquality := by
  intro s
  refine ⟨fun hstring => ⟨_, exec_of_writes (.compare hstring), rfl, candidateMatches_iff⟩,
    fun hnone => ?noString⟩
  case noString => exact finish_check_error (requireString_eq_error.2 ⟨hnone, rfl⟩)

end Sys2Proof.Proofs
end

section
/-! The key block and the digest as `KEYNORM` and `HMACCTR` write them, byte by byte (spec/42_key_hmac.md rules R190,
R192, R193). -/

namespace Sys2Proof.Proofs

open Sys2Proof.Machine

variable (s : State)

/-! ### `KEYBLK` -/

/-- The zeros after the block read as a string that has ended does, so the key block reads as its key (R192). -/
theorem setKeyBlock_read (a : HashAlg) (kb : Bytes) (k : Nat) :
    (s.setKeyBlock a kb).keyblk.read k = byteAt kb k := by
  rw [State.setKeyBlock_keyblk, Memory.read_ofBytes, byteAt_append_zeros]

/-- A secret that fits the block is its own normalized key; no byte of `SECRET` from `SECRET_LEN` on shows (R190). -/
theorem setKeyBlock_read_short {a : HashAlg} (hshort : s.secretLen.toNat ≤ a.blockLen) (k : Nat) :
    (s.setKeyBlock a (normKey a s.secretBytes)).keyblk.read k =
      if k < s.secretLen.toNat then s.secret.read k else 0 := by
  rw [setKeyBlock_read, byteAt_normKey_short a (by rwa [secretBytes_length])]
  split
  case isTrue inSecret => exact byteAt_bytes s.secret inSecret
  case isFalse beyond => exact byteAt_of_le (by rw [secretBytes_length]; omega)

/-- A longer secret is normalized to its hash, which has `L` bytes (R190). -/
theorem setKeyBlock_read_long {a : HashAlg} (hlong : a.blockLen < s.secretLen.toNat) (k : Nat) :
    (s.setKeyBlock a (normKey a s.secretBytes)).keyblk.read k =
      if k < a.digestLen then byteAt (hash a s.secretBytes) k else 0 := by
  rw [setKeyBlock_read, byteAt_normKey_long a (by rwa [secretBytes_length])]
  split
  case isTrue => rfl
  case isFalse beyond => exact byteAt_of_le (by rw [hash_length]; omega)

/-! ### `DIGEST` -/

/-- The digest is read back whole: its string has the length of its algorithm's digests (R193). -/
theorem setDigest_bytes {a : HashAlg} {d : Bytes} (hd : d.length = a.digestLen) :
    (s.setDigest a d).digest.bytes a.digestLen = d := by
  rw [State.setDigest_digest, ← hd, Memory.bytes_ofBytes_append]

/-- Nothing of an earlier, longer digest is left (R193). -/
theorem setDigest_tail {a : HashAlg} {d : Bytes} (hd : d.length = a.digestLen) {k : Nat} (hk : a.digestLen ≤ k) :
    (s.setDigest a d).digest.read k = 0 := by
  rw [State.setDigest_digest, Memory.read_ofBytes, byteAt_append_zeros, byteAt_of_le (by rwa [hd])]

/-- The HMAC of a counter register's eight bytes, with the two pads and the bytes' places written out (R135, R110). -/
theorem hmac_be64_toNat (a : HashAlg) (key : Bytes) (c : DWord) :
    hmac a key (be64 c.toNat) =
      hash a (key.map (· ^^^ 0x5C) ++
        hash a (key.map (· ^^^ 0x36) ++ [56, 48, 40, 32, 24, 16, 8, 0].map fun p => c.extractLsb' p 8)) := by
  rw [be64_toNat]
  rfl

end Sys2Proof.Proofs
end

section
/-! `KEYNORM` and `HMACCTR`: each makes its writes on legal operands and takes the fault of its first failing check
otherwise (spec/42_key_hmac.md rules R192, R193). -/

namespace Sys2Proof.Proofs

open Sys2Proof.Machine

/-- A legal `ALG` passes the first check of every command that hashes (R27, R263). -/
theorem requireAlg_ok_of_ne {s : State} (halg : s.alg ≠ 3) : ∃ a, s.requireAlg = .ok a := by
  obtain ⟨a, ha⟩ := HashAlg.ofField_of_ne halg
  exact ⟨a, requireAlg_eq_ok.2 ha⟩

/-- Settles O27: the key block is that of `State.setKeyBlock`, read for a secret that fits the block and for a longer
one; the check of `ALG` comes before that of `SECRET_LEN`. -/
theorem keynormNormalizesTheSecret : Obligations.KeynormNormalizesTheSecret := by
  intro s
  refine ⟨fun a ha hlen => ⟨_, exec_of_writes (.keynorm ha hlen), rfl,
      fun hshort => setKeyBlock_read_short s hshort, fun hlong => setKeyBlock_read_long s hlong⟩,
    fun halg => ?badAlg, fun halg hlen => ?badSecretLen⟩
  case badAlg => exact finish_check_error (requireAlg_eq_error.2 ⟨halg, rfl⟩)
  case badSecretLen =>
    obtain ⟨a, ha⟩ := requireAlg_ok_of_ne halg
    exact (finish_check_ok ha).trans (finish_check_error (requireSecret_eq_error.2 ⟨hlen, rfl⟩))

/-- Settles O28: the digest is that of `State.setDigest` for the HMAC of the counter bytes; the checks are those of
`ALG`, of the key block and of the counter, in that order. -/
theorem hmacctrComputesTheHmac : Obligations.HmacctrComputesTheHmac := by
  intro s
  refine ⟨fun a ha hkey hctr => ⟨_, exec_of_writes (.hmacctr ha hkey hctr), rfl, ?digest,
      fun _ => setDigest_tail s (hmac_length a _ _)⟩,
    fun halg => ?badAlg, fun halg hkey => ?noKey, fun halg hkey hctr => ?badCounter⟩
  case digest => exact (setDigest_bytes s (hmac_length a _ _)).trans (hmac_be64_toNat a _ s.ctr)
  case badAlg => exact finish_check_error (requireAlg_eq_error.2 ⟨halg, rfl⟩)
  case noKey =>
    obtain ⟨a, ha⟩ := requireAlg_ok_of_ne halg
    exact (finish_check_ok ha).trans (finish_check_error (requireKey_eq_error.2 ⟨hkey, rfl⟩))
  case badCounter =>
    obtain ⟨a, ha⟩ := requireAlg_ok_of_ne halg
    calc exec .hmacctr s
      _ = s.finish _ := finish_check_ok ha
      _ = s.finish _ := finish_check_ok (requireKey_eq_ok.2 ⟨hkey, rfl⟩)
      _ = .next (s.faultedWith 6) := finish_check_error (requireCounter_eq_error.2 ⟨hctr, rfl⟩)

end Sys2Proof.Proofs
end

section
/-! The writes of the one-time password pipeline, in the registers they go to (spec/43_hotp.md rules R209, R210). -/

namespace Sys2Proof.Proofs

open Sys2Proof.Machine

/-- `Memory.bytes_ofBytes` for a length given by a register or a constant of the model. -/
theorem bytes_ofBytes_of_length {bs : Bytes} {n : Nat} (h : bs.length = n) : (Memory.ofBytes bs).bytes n = bs := by
  rw [← h, Memory.bytes_ofBytes]

variable (s : State) (a : HashAlg) (secret : Bytes) (c : Nat)

/-! ### `KEYBLK` and `DIGEST` -/

theorem otpStages_keyblk_bytes (n : Nat) :
    (s.otpStages a secret c n).keyblk.bytes 128 = normKey a secret ++ zeros (128 - a.blockLen) := by
  have hblock := a.blockLen_le
  rw [State.otpStages_keyblk, bytes_ofBytes_of_length]
  rw [List.length_append, normKey_length, zeros_length]
  omega

theorem otpStages_digest_bytes (n : Nat) :
    (s.otpStages a secret c n).digest.bytes 64 =
      hmac a (normKey a secret) (be64 c) ++ zeros (64 - a.digestLen) := by
  have hdigest := a.digestLen_le
  rw [State.otpStages_digest, bytes_ofBytes_of_length]
  rw [List.length_append, hmac_length, zeros_length]
  omega

/-- `DIGEST[0..DIGEST_LEN)` is the HMAC that is truncated. -/
theorem otpStages_digest_bytes_digestLen (n : Nat) :
    (s.otpStages a secret c n).digest.bytes a.digestLen = hmac a (normKey a secret) (be64 c) :=
  setDigest_bytes (s.setKeyBlock a (normKey a secret)) (hmac_length a _ _)

/-! ### `OFFSET`, `VALUE` and `CODE` -/

/-- The offset is taken from the last byte of the digest just written (R160). -/
theorem otpStages_offset_toNat (n : Nat) :
    (s.otpStages a secret c n).offset.toNat =
      ((s.otpStages a secret c n).digest.read (a.digestLen - 1)).toNat % 16 := by
  rw [State.otpStages_digest, Memory.read_ofBytes, byteAt_append_zeros]
  calc (s.otpStages a secret c n).offset.toNat
    _ = dtOffset (hmac a (normKey a secret) (be64 c)) := setTrunc_offset_toNat _ _ n
    _ = _ := by rw [dtOffset_eq, hmac_length]

theorem otpStages_value_toNat (n : Nat) :
    (s.otpStages a secret c n).value.toNat = dtValue ((s.otpStages a secret c n).digest.bytes a.digestLen) := by
  rw [otpStages_digest_bytes_digestLen]
  exact setTrunc_value_toNat _ _ n

theorem otpStages_code_toNat (n : Nat) :
    (s.otpStages a secret c n).code.toNat = (s.otpStages a secret c n).value.toNat % 10 ^ n := by
  rw [otpStages_value_toNat, otpStages_digest_bytes_digestLen]
  exact setTrunc_code_toNat _ _ n

/-! ### `CODESTR` and `STRLEN` -/

/-- The string written is the one-time password of the secret and the counter (R209). -/
theorem otpStages_codestr_bytes (n : Nat) : (s.otpStages a secret c n).codestr.bytes n = hotp a secret c n := by
  have hlen : (hotp a secret c n).length = n := dec_length _ n
  calc (s.otpStages a secret c n).codestr.bytes n
    _ = (Memory.ofBytes (hotp a secret c n ++ zeros (12 - n))).bytes (hotp a secret c n).length := by rw [hlen]; rfl
    _ = hotp a secret c n := Memory.bytes_ofBytes_append _ _

theorem otpStages_codestr_tail {n i : Nat} (hi : n ≤ i) : (s.otpStages a secret c n).codestr.read i = 0 :=
  setTrunc_tail ((s.setKeyBlock a _).setDigest a _) _ hi

/-- With the digit count taken from `DIGITS`, the comparison is of the candidate with the one-time password
(R170, R211). -/
theorem otpStages_candidateMatches_iff :
    (s.otpStages a secret c s.digits.toNat).candidateMatches = true ↔
      s.cand.bytes s.candLen.toNat = hotp a secret c s.digits.toNat := by
  have hstrlen : (s.otpStages a secret c s.digits.toNat).strlen = s.digits := by simp
  rw [candidateMatches_iff, hstrlen, otpStages_codestr_bytes, State.otpStages_cand, State.otpStages_candLen]

/-! ### The frame -/

/-- With the digit count taken from `DIGITS`, nothing but the registers of the stages is written (R210). -/
theorem otpStages_digits :
    s.otpStages a secret c s.digits.toNat =
      { s with
        keyblk := (s.otpStages a secret c s.digits.toNat).keyblk, keyvalid := true
        digest := (s.otpStages a secret c s.digits.toNat).digest, digestLen := BitVec.ofNat 8 a.digestLen
        offset := (s.otpStages a secret c s.digits.toNat).offset
        value := (s.otpStages a secret c s.digits.toNat).value
        code := (s.otpStages a secret c s.digits.toNat).code
        codestr := (s.otpStages a secret c s.digits.toNat).codestr, strlen := s.digits } :=
  setTrunc_digits ((s.setKeyBlock a _).setDigest a _) _

end Sys2Proof.Proofs
end

section
/-! `HOTPGEN` and `HOTPVFY`: the stages of the pipeline on legal operands, the fault of the first failing check
otherwise, and the three published vectors (spec/43_hotp.md rules R210, R211, R213). -/

namespace Sys2Proof.Proofs

open Sys2Proof.Machine

/-- Settles O38: the results are those of `State.otpStages`; the checks are those of `ALG`, of `SECRET_LEN`, of the
counter and of `DIGITS`, in that order, and all come before the writes. -/
theorem hotpgenGeneratesTheCode : Obligations.HotpgenGeneratesTheCode := by
  intro s
  refine ⟨fun a ha hlen hctr h1 h10 => ⟨_, exec_of_writes (.hotpgen ha hlen hctr h1 h10), ?frame,
      ?codestr, ?keyblk, ?digest, ?offset, ?value, ?code, fun _ => otpStages_codestr_tail s a _ _⟩,
    fun halg => ?badAlg, fun halg hlen => ?badSecretLen, fun halg hlen hctr => ?badCounter,
    fun halg hlen hctr hdigits => ?badDigits⟩
  case frame => exact congrArg State.succeed (otpStages_digits s a _ _)
  case codestr => exact otpStages_codestr_bytes s a s.secretBytes s.ctr.toNat s.digits.toNat
  case keyblk => exact otpStages_keyblk_bytes s a s.secretBytes s.ctr.toNat s.digits.toNat
  case digest => exact otpStages_digest_bytes s a s.secretBytes s.ctr.toNat s.digits.toNat
  case offset => exact otpStages_offset_toNat s a s.secretBytes s.ctr.toNat s.digits.toNat
  case value => exact otpStages_value_toNat s a s.secretBytes s.ctr.toNat s.digits.toNat
  case code => exact otpStages_code_toNat s a s.secretBytes s.ctr.toNat s.digits.toNat
  case badAlg => exact finish_check_error (requireAlg_eq_error.2 ⟨halg, rfl⟩)
  case badSecretLen =>
    obtain ⟨a, ha⟩ := requireAlg_ok_of_ne halg
    exact (finish_check_ok ha).trans (finish_check_error (requireSecret_eq_error.2 ⟨hlen, rfl⟩))
  case badCounter =>
    obtain ⟨a, ha⟩ := requireAlg_ok_of_ne halg
    calc exec .hotpgen s
      _ = s.finish _ := finish_check_ok ha
      _ = s.finish _ := finish_check_ok (requireSecret_eq_ok.2 ⟨hlen, rfl⟩)
      _ = .next (s.faultedWith 6) := finish_check_error (requireCounter_eq_error.2 ⟨hctr, rfl⟩)
  case badDigits =>
    obtain ⟨a, ha⟩ := requireAlg_ok_of_ne halg
    calc exec .hotpgen s
      _ = s.finish _ := finish_check_ok ha
      _ = s.finish _ := finish_check_ok (requireSecret_eq_ok.2 ⟨hlen, rfl⟩)
      _ = s.finish _ := finish_check_ok (requireCounter_eq_ok.2 ⟨hctr, rfl⟩)
      _ = .next (s.faultedWith 8) := finish_check_error (requireDigits_eq_error.2 ⟨hdigits, rfl⟩)

/-- A command that generates first and then verifies faults as the generation does (R211, R233). -/
theorem finish_setMatch_of_fault {s g : State} {x : Except CommandFault State} (h : s.finish x = .next g)
    (hfault : g.err ≠ 0) : s.finish (x >>= fun t => .ok t.setMatch) = .next g := by
  obtain ⟨f, hx, rfl⟩ | ⟨u, -, rfl⟩ := finish_cases h
  · exact finish_check_error hx
  · exact absurd u.succeed_err hfault

/-- Settles O40: the two commands make the same checks and the writes of `State.otpStages`, and `HOTPVFY` then makes
the comparison of `State.setMatch` with the string just written. -/
theorem hotpvfyMatchesExactlyTheCode : Obligations.HotpvfyMatchesExactlyTheCode := by
  intro s
  refine ⟨fun a ha hlen hctr h1 h10 => ?legal, fun g => finish_setMatch_of_fault⟩
  case legal =>
    have generated : CommandWrites s .hotpgen (s.otpStages a s.secretBytes s.ctr.toNat s.digits.toNat) :=
      .hotpgen ha hlen hctr h1 h10
    exact ⟨_, _, exec_of_writes generated, exec_of_writes (.hotpvfy generated), rfl, rfl,
      otpStages_candidateMatches_iff s a _ _⟩

/-! ### The published vectors -/

/-- The secret of the published vectors, ASCII "12345678901234567890" (R213). -/
def publishedSecret : Bytes :=
  [0x31, 0x32, 0x33, 0x34, 0x35, 0x36, 0x37, 0x38, 0x39, 0x30, 0x31, 0x32, 0x33, 0x34, 0x35, 0x36, 0x37, 0x38, 0x39,
    0x30]

/-- The counters of the published vectors with their codes (R213). -/
def publishedVectors : List (DWord × Bytes) :=
  [(0, [0x37, 0x35, 0x35, 0x32, 0x32, 0x34]), (1, [0x32, 0x38, 0x37, 0x30, 0x38, 0x32]),
    (9, [0x35, 0x32, 0x30, 0x34, 0x38, 0x39])]

theorem publishedVectors_ctr_lt : ∀ v ∈ publishedVectors, v.1.toNat < 2 ^ 63 := by decide

/-- The three evaluations of SHA-1, HMAC and the truncation, checked by the kernel. -/
theorem hotp_publishedVectors : ∀ v ∈ publishedVectors, hotp .sha1 publishedSecret v.1.toNat 6 = v.2 := by
  decide +kernel

/-- Settles O43: `HOTPGEN` writes the HOTP string of the operands (O38), and that string is the published code. -/
theorem publishedHotpVectors : Obligations.PublishedHotpVectors := by
  intro c code hvector
  have hctr : c.toNat < 2 ^ 63 := publishedVectors_ctr_lt (c, code) hvector
  obtain ⟨generates, -⟩ := hotpgenGeneratesTheCode
    { State.reset with secret := Memory.ofBytes publishedSecret, secretLen := 20, ctr := c }
  obtain ⟨t, exec_eq, frame, codestr_eq, -⟩ := generates .sha1 rfl
    (by decide : (20 : BitVec 16).toNat ≤ 256) hctr (by decide : 1 ≤ (6 : BitVec 8).toNat)
    (by decide : (6 : BitVec 8).toNat ≤ 10)
  refine ⟨t, exec_eq, by rw [frame], by rw [frame]; rfl, ?code⟩
  calc t.codestr.bytes 6
    _ = hotp .sha1 ((Memory.ofBytes publishedSecret).bytes publishedSecret.length) c.toNat 6 := codestr_eq
    _ = hotp .sha1 publishedSecret c.toNat 6 := by rw [Memory.bytes_ofBytes]
    _ = code := hotp_publishedVectors (c, code) hvector

end Sys2Proof.Proofs
end

section
/-! The time step in `TCTR`, and the checks of the time-derived commands up to it (spec/44_totp.md rules R230 to
R232). -/

namespace Sys2Proof.Proofs

open Sys2Proof.Machine

variable {s : State}

/-! ### `TCTR` -/

theorem setTctr_tctr_toNat (s : State) {q : Nat} (hq : q < 2 ^ 64) : (s.setTctr q).tctr.toNat = q :=
  (BitVec.toNat_ofNat _ _).trans (Nat.mod_eq_of_lt hq)

/-- A time step in range fits the register, so `TCTR` holds it exactly (R231). -/
theorem setTctr_timeStep (h0 : 0 ≤ s.timeStep) (hmax : s.timeStep ≤ 2 ^ 63 - 1) :
    ((s.setTctr s.timeStep.toNat).tctr.toNat : Int) = s.timeStep := by
  rw [setTctr_tctr_toNat s (by omega), Int.toNat_of_nonneg h0]

/-! ### The checks -/

theorem requireTimeStep_eq_error_of_period (hperiod : s.period = 0) : s.requireTimeStep = .error .period :=
  requireTimeStep_eq_error.2 (.inl ⟨hperiod, rfl⟩)

theorem requireTimeStep_eq_error_of_outside (hperiod : s.period ≠ 0)
    (houtside : s.timeStep < 0 ∨ 2 ^ 63 - 1 < s.timeStep) : s.requireTimeStep = .error .ctrRange :=
  requireTimeStep_eq_error.2 (.inr ⟨hperiod, houtside, rfl⟩)

/-- With a legal `ALG` and a legal `SECRET_LEN`, the outcome of `TOTPGEN` turns on the checks of the time step and of
`DIGITS`, in that order (R232). -/
theorem exec_totpgen_of_secret (halg : s.alg ≠ 3) (hlen : s.secretLen.toNat ≤ 256) :
    ∃ a, exec .totpgen s = s.finish (s.requireTimeStep >>= fun q => s.requireDigits >>= fun n =>
      .ok ((s.setTctr q).otpStages a s.secretBytes q n)) := by
  obtain ⟨a, ha⟩ := requireAlg_ok_of_ne halg
  exact ⟨a, (finish_check_ok ha).trans (finish_check_ok (requireSecret_eq_ok.2 ⟨hlen, rfl⟩))⟩

/-! ### The writes of `TOTPGEN` -/

/-- On legal operands `TOTPGEN` makes the writes of the stages with the time step `q`, which it leaves in `TCTR`
(R232). -/
theorem totpgen_writes {a : HashAlg} {q : Nat} (ha : HashAlg.ofField s.alg = some a)
    (hlen : s.secretLen.toNat ≤ 256) (hperiod : s.period ≠ 0) (hq : s.timeStep = q) (hmax : q ≤ 2 ^ 63 - 1)
    (h1 : 1 ≤ s.digits.toNat) (h10 : s.digits.toNat ≤ 10) :
    CommandWrites s .totpgen ((s.setTctr q).otpStages a s.secretBytes q s.digits.toNat) := by
  have toNat_eq : s.timeStep.toNat = q := by rw [hq, Int.toNat_natCast]
  rw [← toNat_eq]
  exact .totpgen ha hlen hperiod (by omega) (by omega) h1 h10

end Sys2Proof.Proofs
end

section
/-! `TSTEP`, `TOTPGEN` and `TOTPVFY`: the time step and the stages of the pipeline on legal operands, the fault of the
first failing check otherwise (spec/44_totp.md rules R231 to R233). -/

namespace Sys2Proof.Proofs

open Sys2Proof.Machine

/-- Settles O44: the quotient is `State.timeStep` (`timeStep_eq`), and the check of `PERIOD` comes before that of its
range. -/
theorem tstepTruncatesTowardZero : Obligations.TstepTruncatesTowardZero := by
  rintro s q rfl
  rw [← timeStep_eq]
  refine ⟨fun hperiod h0 hmax => ⟨_, exec_of_writes (.tstep hperiod h0 hmax), setTctr_timeStep h0 hmax, rfl⟩,
    fun hperiod => ?badPeriod, fun hperiod houtside => ?badTimeStep⟩
  case badPeriod => exact finish_check_error (requireTimeStep_eq_error_of_period hperiod)
  case badTimeStep => exact finish_check_error (requireTimeStep_eq_error_of_outside hperiod houtside)

/-- Settles O45: the results are those of `State.otpStages` with the number just written to `TCTR`; the checks are
those of `ALG`, of `SECRET_LEN`, of the time step and of `DIGITS`, in that order, and all come before the writes. -/
theorem totpgenGeneratesTheCode : Obligations.TotpgenGeneratesTheCode := by
  rintro s q rfl
  rw [← timeStep_eq]
  refine ⟨fun a ha hlen hperiod h0 hmax h1 h10 => ?legal, fun halg => ?badAlg, fun halg hlen => ?badSecretLen,
    fun halg hlen hperiod => ?badPeriod, fun halg hlen hperiod houtside => ?badTimeStep,
    fun halg hlen hperiod h0 hmax hdigits => ?badDigits⟩
  case legal =>
    obtain ⟨q, hq⟩ := Int.eq_ofNat_of_zero_le h0
    have tctr_eq : (s.setTctr q).tctr.toNat = q := setTctr_tctr_toNat s (by omega)
    refine ⟨_, exec_of_writes (totpgen_writes ha hlen hperiod hq (by omega) h1 h10), ?frame, ?tctr, ?results⟩
    case frame => exact congrArg State.succeed (otpStages_digits (s.setTctr q) a _ _)
    case tctr => exact (congrArg Nat.cast tctr_eq).trans hq.symm
    case results =>
      rw [State.succeed_tctr, State.otpStages_tctr, tctr_eq]
      refine ⟨?codestr, ?keyblk, ?digest, ?offset, ?value, ?code, fun _ => otpStages_codestr_tail (s.setTctr q) a _ _⟩
      case codestr => exact otpStages_codestr_bytes (s.setTctr q) a s.secretBytes q s.digits.toNat
      case keyblk => exact otpStages_keyblk_bytes (s.setTctr q) a s.secretBytes q s.digits.toNat
      case digest => exact otpStages_digest_bytes (s.setTctr q) a s.secretBytes q s.digits.toNat
      case offset => exact otpStages_offset_toNat (s.setTctr q) a s.secretBytes q s.digits.toNat
      case value => exact otpStages_value_toNat (s.setTctr q) a s.secretBytes q s.digits.toNat
      case code => exact otpStages_code_toNat (s.setTctr q) a s.secretBytes q s.digits.toNat
  case badAlg => exact finish_check_error (requireAlg_eq_error.2 ⟨halg, rfl⟩)
  case badSecretLen =>
    obtain ⟨a, ha⟩ := requireAlg_ok_of_ne halg
    exact (finish_check_ok ha).trans (finish_check_error (requireSecret_eq_error.2 ⟨hlen, rfl⟩))
  case badPeriod =>
    obtain ⟨a, exec_eq⟩ := exec_totpgen_of_secret halg hlen
    exact exec_eq.trans (finish_check_error (requireTimeStep_eq_error_of_period hperiod))
  case badTimeStep =>
    obtain ⟨a, exec_eq⟩ := exec_totpgen_of_secret halg hlen
    exact exec_eq.trans (finish_check_error (requireTimeStep_eq_error_of_outside hperiod houtside))
  case badDigits =>
    obtain ⟨a, exec_eq⟩ := exec_totpgen_of_secret halg hlen
    calc exec .totpgen s
      _ = s.finish _ := exec_eq
      _ = s.finish _ := finish_check_ok (requireTimeStep_eq_ok.2 ⟨hperiod, h0, hmax, rfl⟩)
      _ = .next (s.faultedWith 8) := finish_check_error (requireDigits_eq_error.2 ⟨hdigits, rfl⟩)

/-- Settles O47: the two commands make the same checks and the writes of the stages with the one time step, and
`TOTPVFY` then makes the comparison of `State.setMatch` with the string just written. -/
theorem totpvfyMatchesExactlyTheCode : Obligations.TotpvfyMatchesExactlyTheCode := by
  intro s
  refine ⟨fun a q ha hlen hperiod hq hmax h1 h10 => ?legal, fun g => finish_setMatch_of_fault⟩
  case legal =>
    have generated : CommandWrites s .totpgen ((s.setTctr q).otpStages a s.secretBytes q s.digits.toNat) :=
      totpgen_writes ha hlen hperiod (timeStep_eq.trans hq.symm) hmax h1 h10
    exact ⟨_, _, exec_of_writes generated, exec_of_writes (.totpvfy generated), rfl, rfl,
      otpStages_candidateMatches_iff (s.setTctr q) a _ _⟩

end Sys2Proof.Proofs
end

section
/-! `NOP` and `CLEAR`: neither makes a check, so each completes in every state, also in the state its Accept leaves
(spec/45_housekeeping.md rules R250, R251). -/

namespace Sys2Proof.Proofs

open Sys2Proof.Machine

/-- Of the fields Accept writes, Complete writes `BUSY`, `DONE` and `ERR` again, so only `LASTCMD` and `MATCH` show
that there was an Accept (R52, R53). -/
theorem succeed_accept (s : State) (w : Word) :
    (s.accept w).succeed = { s.succeed with lastcmd := w, matched := false } := rfl

/-- The zeroes of `CLEAR` and the writes of Accept fall on different fields (R52, R251). -/
theorem zeroize_accept (s : State) (w : Word) : (s.accept w).zeroize = s.zeroize.accept w := rfl

/-- Settles O24: the command's own writes are none, so the end states are those of Complete, without an Accept and
after one. -/
theorem nopOnlyCompletes : Obligations.NopOnlyCompletes := by
  intro s
  refine ⟨exec_of_writes .nop, ?accepted⟩
  case accepted =>
    calc exec .nop (s.accept 0x00000000)
      _ = .next (s.accept 0x00000000).succeed := exec_of_writes .nop
      _ = .next { s.succeed with lastcmd := 0, matched := false } := by rw [succeed_accept]

/-- Settles O25: the state after `CLEAR` is `State.zeroize` completed, whose five buffers are the zero memory; an
Accept before it commutes with the zeroes. -/
theorem clearZeroizes : Obligations.ClearZeroizes := by
  intro s
  refine ⟨s.zeroize.succeed, exec_of_writes .clear, fun a => ?buffers, rfl, ?accepted⟩
  case buffers =>
    simp only [State.succeed_secret, State.succeed_keyblk, State.succeed_digest, State.succeed_codestr,
      State.succeed_cand, State.zeroize_secret, State.zeroize_keyblk, State.zeroize_digest, State.zeroize_codestr,
      State.zeroize_cand, Memory.read_zero, and_self]
  case accepted =>
    calc exec .clear (s.accept 0x00000001)
      _ = .next (s.accept 0x00000001).zeroize.succeed := exec_of_writes .clear
      _ = .next { s.zeroize.succeed with lastcmd := 0x00000001, matched := false } := by
        rw [zeroize_accept, succeed_accept]

end Sys2Proof.Proofs
end

section
/-! The checks of a command against the columns of the fault table: what each check reports, in the terms of its column
(spec/60_exceptions.md rules R260, R263). -/

namespace Sys2Proof.Proofs

open Sys2Proof.Machine

/-! ### The table, one column at a time -/

/-- `reportedFault` on any list of columns. -/
def lowestCode (i : Instr) (columns : List FaultColumn) : Nat :=
  match columns.find? (fun c => c.holds && c.raisedBy.contains i) with
  | some c => c.code
  | none => 0

theorem reportedFault_eq_lowestCode (i : Instr) (s : State) : reportedFault i s = lowestCode i (faultTable s) := rfl

theorem lowestCode_nil (i : Instr) : lowestCode i [] = 0 := rfl

theorem lowestCode_cons_of_raises {i : Instr} {c : FaultColumn} (h : i ∈ c.raisedBy) (columns : List FaultColumn) :
    lowestCode i (c :: columns) = if c.holds then c.code else lowestCode i columns := by
  unfold lowestCode
  rw [List.find?_cons, List.contains_iff_mem.2 h, Bool.and_true]
  cases c.holds <;> rfl

theorem lowestCode_cons_of_never {i : Instr} {c : FaultColumn} (h : i ∉ c.raisedBy) (columns : List FaultColumn) :
    lowestCode i (c :: columns) = lowestCode i columns := by
  unfold lowestCode
  rw [List.find?_cons_of_neg]
  simp [h]

/-! ### The code of a result -/

/-- The code that a command's checks and writes report: that of the fault, 0 if there is none (R53). -/
def faultCode {α : Type} : Except CommandFault α → Nat
  | .ok _ => 0
  | .error f => f.errCode.toNat

section Checks

variable {s : State} {α : Type} {n : Nat}

/-- A check in front of others reports its code when it fails, and else leaves the code to them. -/
theorem faultCode_bind {x : Except CommandFault α} {rest : α → Except CommandFault State} {p : Bool} {code : Nat}
    (fails : ∀ f, x = .error f → p = true ∧ f.errCode.toNat = code) (passes : ∀ a, x = .ok a → p = false)
    (hrest : ∀ a, x = .ok a → faultCode (rest a) = n) :
    faultCode (x >>= rest) = if p then code else n := by
  cases x with
  | error f =>
    obtain ⟨rfl, hcode⟩ := fails f rfl
    exact hcode
  | ok a =>
    obtain rfl := passes a rfl
    exact hrest a rfl

/-- Writes after the checks report nothing. -/
theorem faultCode_bind_ok {x : Except CommandFault α} {writes : α → State} :
    faultCode (x >>= fun a => .ok (writes a)) = faultCode x := by
  cases x <;> rfl

/-! ### Each check under the condition of its column -/

theorem faultCode_requireAlg {rest : HashAlg → Except CommandFault State} (hrest : ∀ a, faultCode (rest a) = n) :
    faultCode (s.requireAlg >>= rest) = if s.alg == 3 then 2 else n := by
  refine faultCode_bind (fun f hf => ?fails) (fun a ha => ?passes) fun a _ => hrest a
  case fails =>
    obtain ⟨halg, rfl⟩ := requireAlg_eq_error.1 hf
    exact ⟨beq_iff_eq.2 halg, rfl⟩
  case passes =>
    rw [beq_eq_false_iff_ne, ne_eq, ← HashAlg.ofField_eq_none, requireAlg_eq_ok.1 ha]
    exact Option.some_ne_none a

theorem faultCode_requireSecret {rest : Bytes → Except CommandFault State} (hrest : ∀ b, faultCode (rest b) = n) :
    faultCode (s.requireSecret >>= rest) = if decide (256 < s.secretLen.toNat) then 3 else n := by
  refine faultCode_bind (fun f hf => ?fails) (fun b hb => ?passes) fun b _ => hrest b
  case fails =>
    obtain ⟨hlen, rfl⟩ := requireSecret_eq_error.1 hf
    exact ⟨decide_eq_true hlen, rfl⟩
  case passes =>
    obtain ⟨hlen, -⟩ := requireSecret_eq_ok.1 hb
    exact decide_eq_false (Nat.not_lt.2 hlen)

theorem faultCode_requireKey {a : HashAlg} {rest : Bytes → Except CommandFault State}
    (hrest : ∀ b, faultCode (rest b) = n) :
    faultCode (s.requireKey a >>= rest) = if !s.keyvalid then 4 else n := by
  refine faultCode_bind (fun f hf => ?fails) (fun b hb => ?passes) fun b _ => hrest b
  case fails =>
    obtain ⟨hkey, rfl⟩ := requireKey_eq_error.1 hf
    exact ⟨congrArg not hkey, rfl⟩
  case passes =>
    obtain ⟨hkey, -⟩ := requireKey_eq_ok.1 hb
    exact congrArg not hkey

theorem faultCode_requireCounter {rest : Nat → Except CommandFault State} (hrest : ∀ c, faultCode (rest c) = n) :
    faultCode (s.requireCounter >>= rest) = if decide (2 ^ 63 ≤ s.ctr.toNat) then 6 else n := by
  refine faultCode_bind (fun f hf => ?fails) (fun c hc => ?passes) fun c _ => hrest c
  case fails =>
    obtain ⟨hctr, rfl⟩ := requireCounter_eq_error.1 hf
    exact ⟨decide_eq_true hctr, rfl⟩
  case passes =>
    obtain ⟨hctr, -⟩ := requireCounter_eq_ok.1 hc
    exact decide_eq_false (Nat.not_le.2 hctr)

/-- The time step has two checks, and so two columns. -/
theorem faultCode_requireTimeStep {rest : Nat → Except CommandFault State} (hrest : ∀ q, faultCode (rest q) = n) :
    faultCode (s.requireTimeStep >>= rest) =
      if s.period == 0 then 5 else if s.timeStep < 0 || 2 ^ 63 - 1 < s.timeStep then 6 else n := by
  by_cases hperiod : s.period = 0
  · rw [if_pos (beq_iff_eq.2 hperiod), requireTimeStep_eq_error_of_period hperiod]
    rfl
  · rw [if_neg (mt beq_iff_eq.1 hperiod)]
    refine faultCode_bind (fun f hf => ?fails) (fun q hq => ?passes) fun q _ => hrest q
    case fails =>
      obtain ⟨hzero, -⟩ | ⟨-, houtside, rfl⟩ := requireTimeStep_eq_error.1 hf
      · exact absurd hzero hperiod
      · exact ⟨by simpa using houtside, rfl⟩
    case passes =>
      obtain ⟨-, h0, hmax, -⟩ := requireTimeStep_eq_ok.1 hq
      simpa using ⟨h0, hmax⟩

theorem faultCode_requireDigest {rest : Bytes → Except CommandFault State} (hrest : ∀ d, faultCode (rest d) = n) :
    faultCode (s.requireDigest >>= rest) =
      if s.digestLen.toNat == 0 || 64 < s.digestLen.toNat ||
        s.digestLen.toNat < (s.digest.read (s.digestLen.toNat - 1)).toNat % 16 + 4 then 7 else n := by
  refine faultCode_bind (fun f hf => ?fails) (fun d hd => ?passes) fun d _ => hrest d
  case fails =>
    obtain ⟨hdigest, rfl⟩ := requireDigest_eq_error.1 hf
    rw [digestOk_iff rfl rfl] at hdigest
    refine ⟨?_, rfl⟩
    simp only [Bool.or_eq_true, beq_iff_eq, decide_eq_true_eq]
    omega
  case passes =>
    obtain ⟨h1, h64, hfits⟩ := (digestOk_iff rfl rfl).1 (requireDigest_eq_ok.1 hd).1
    simp only [Bool.or_eq_false_iff, beq_eq_false_iff_ne, decide_eq_false_iff_not]
    omega

/-- What follows the check has the digit count it answers, which the next check of `RENDER` reads. -/
theorem faultCode_requireDigits {rest : Nat → Except CommandFault State}
    (hrest : faultCode (rest s.digits.toNat) = n) :
    faultCode (s.requireDigits >>= rest) = if s.digits == 0 || 10 < s.digits.toNat then 8 else n := by
  refine faultCode_bind (fun f hf => ?fails) (fun d hd => ?passes) fun d hd => ?rest
  case fails =>
    obtain ⟨hdigits, rfl⟩ := requireDigits_eq_error.1 hf
    exact ⟨by simpa [← BitVec.toNat_inj] using hdigits, rfl⟩
  case passes =>
    obtain ⟨h1, h10, -⟩ := requireDigits_eq_ok.1 hd
    simpa [← BitVec.toNat_inj] using ⟨Nat.ne_of_gt h1, h10⟩
  case rest =>
    obtain ⟨-, -, rfl⟩ := requireDigits_eq_ok.1 hd
    exact hrest

theorem faultCode_requireCode {digits : Nat} {rest : Nat → Except CommandFault State}
    (hrest : ∀ c, faultCode (rest c) = n) :
    faultCode (s.requireCode digits >>= rest) = if decide (10 ^ digits ≤ s.code.toNat) then 9 else n := by
  refine faultCode_bind (fun f hf => ?fails) (fun c hc => ?passes) fun c _ => hrest c
  case fails =>
    obtain ⟨hcode, rfl⟩ := requireCode_eq_error.1 hf
    exact ⟨decide_eq_true hcode, rfl⟩
  case passes =>
    obtain ⟨hcode, -⟩ := requireCode_eq_ok.1 hc
    exact decide_eq_false (Nat.not_le.2 hcode)

theorem faultCode_requireString {rest : Unit → Except CommandFault State} (hrest : ∀ u, faultCode (rest u) = n) :
    faultCode (s.requireString >>= rest) = if s.strlen == 0 then 10 else n := by
  refine faultCode_bind (fun f hf => ?fails) (fun u hu => ?passes) fun u _ => hrest u
  case fails =>
    obtain ⟨hstring, rfl⟩ := requireString_eq_error.1 hf
    exact ⟨beq_iff_eq.2 hstring, rfl⟩
  case passes => exact beq_eq_false_iff_ne.2 (requireString_eq_ok.1 hu)

end Checks

end Sys2Proof.Proofs
end

section
/-! Every command makes its checks in the order of its columns in the fault table, so the fault it takes is that of the
lowest code that applies (spec/60_exceptions.md rules R262 to R264). -/

namespace Sys2Proof.Proofs

open Sys2Proof.Machine

/-- The checks of `HOTPGEN`, which `HOTPVFY` makes first (R210, R211). -/
theorem faultCode_hotpGenerate (s : State) :
    faultCode s.hotpGenerate =
      if s.alg == 3 then 2
      else if decide (256 < s.secretLen.toNat) then 3
      else if decide (2 ^ 63 ≤ s.ctr.toNat) then 6
      else if s.digits == 0 || 10 < s.digits.toNat then 8
      else 0 :=
  faultCode_requireAlg fun _ => faultCode_requireSecret fun _ => faultCode_requireCounter fun _ =>
    faultCode_requireDigits rfl

/-- The checks of `TOTPGEN`, which `TOTPVFY` makes first (R232, R233). -/
theorem faultCode_totpGenerate (s : State) :
    faultCode s.totpGenerate =
      if s.alg == 3 then 2
      else if decide (256 < s.secretLen.toNat) then 3
      else if s.period == 0 then 5
      else if s.timeStep < 0 || 2 ^ 63 - 1 < s.timeStep then 6
      else if s.digits == 0 || 10 < s.digits.toNat then 8
      else 0 :=
  faultCode_requireAlg fun _ => faultCode_requireSecret fun _ => faultCode_requireTimeStep fun _ =>
    faultCode_requireDigits rfl

/-- A command completes with the result of its checks and writes (R53), and the code of that result is the one the table
gives. In each case the left side names the checks in the order the command makes them, and the right side the columns
it has in the table. -/
theorem exec_reports (i : Instr) (s : State) :
    ∃ r, exec i s = s.finish r ∧ faultCode r = reportedFault i s := by
  cases i
  all_goals
    refine ⟨_, rfl, ?_⟩
    simp only [reportedFault_eq_lowestCode, faultTable, ← timeStep_eq, List.cons_append, List.nil_append,
      lowestCode_cons_of_raises, lowestCode_cons_of_never, lowestCode_nil, List.mem_cons, List.not_mem_nil,
      reduceCtorEq, or_false, or_true, or_self, not_false_eq_true]
  case nop | clear => rfl
  case keynorm => exact faultCode_requireAlg fun _ => faultCode_requireSecret fun _ => rfl
  case hmacctr =>
    exact faultCode_requireAlg fun _ => faultCode_requireKey fun _ => faultCode_requireCounter fun _ => rfl
  case extract => exact faultCode_requireDigest fun _ => rfl
  case reduce => exact faultCode_requireDigits rfl
  case render => exact faultCode_requireDigits (faultCode_requireCode fun _ => rfl)
  case trunc => exact faultCode_requireDigest fun _ => faultCode_requireDigits rfl
  case compare => exact faultCode_requireString fun _ => rfl
  case hotpgen => exact faultCode_hotpGenerate s
  case hotpvfy => exact faultCode_bind_ok.trans (faultCode_hotpGenerate s)
  case tstep => exact faultCode_requireTimeStep fun _ => rfl
  case totpgen => exact faultCode_totpGenerate s
  case totpvfy => exact faultCode_bind_ok.trans (faultCode_totpGenerate s)

/-- Settles O21: `State.takeFault` with the table's code is `State.faultedWith` that code, and a command that takes no
fault leaves `ERR` 0. -/
theorem lowestApplicableFaultIsReported : Obligations.LowestApplicableFaultIsReported := by
  intro i s
  obtain ⟨r, hexec, hcode⟩ := exec_reports i s
  rw [← hcode]
  cases r with
  | ok u => exact ⟨u.succeed, hexec, rfl, fun hfault => absurd rfl hfault⟩
  | error f =>
    refine ⟨s.takeFault f, hexec, rfl, fun _ => ?_⟩
    rw [faultCode, BitVec.ofNat_toNat, BitVec.setWidth_eq]
    rfl

end Sys2Proof.Proofs
end

section
/-! Host accesses that answer `ERROR` (spec/60_exceptions.md rule R267; spec/20_memory.md rules R72, R73, R75). -/

namespace Sys2Proof.Proofs

open Sys2Proof.Machine

/-- The map finds a register only at the register's own offset (R47). -/
theorem offsetOf_of_atOffset {off : Nat} {r : Reg} (h : Reg.atOffset off = some r) : Reg.offsetOf r = off := by
  unfold Reg.atOffset at h
  split_ifs at h with misaligned codestr cand digest secret
  case neg => exact beq_iff_eq.1 (List.find?_some (p := fun r => Reg.offsetOf r == off) h)
  all_goals
    obtain rfl := Option.some.inj h
    simp only [Reg.offsetOf]
    omega

/-- The registers lie at aligned offsets in the window, outside the reserved ranges (R47, R80). -/
theorem offsetOf_mapped (r : Reg) :
    Reg.offsetOf r % 4 = 0 ∧ Reg.offsetOf r < 0x200 ∧ Reg.offsetOf r ≠ 0x078 ∧ Reg.offsetOf r ≠ 0x07C ∧
      ¬ (0x0C0 ≤ Reg.offsetOf r ∧ Reg.offsetOf r ≤ 0x0FC) := by
  cases r with
  | codestr k | cand k | digest k | secret k =>
    simp only [Reg.offsetOf]
    omega
  | _ => decide

theorem atOffset_eq_none_of_unmapped {off : Nat}
    (h : off % 4 ≠ 0 ∨ 0x200 ≤ off ∨ off = 0x078 ∨ off = 0x07C ∨ (0x0C0 ≤ off ∧ off ≤ 0x0FC)) :
    Reg.atOffset off = none := by
  refine Option.eq_none_iff_forall_ne_some.2 fun r hr => ?_
  have mapped := offsetOf_mapped r
  rw [offsetOf_of_atOffset hr] at mapped
  omega

/-- Settles O6: no register lies at such an offset, and `ERROR` is answered before the hold is looked at; an access of
another width is refused at any offset. -/
theorem badAccessAnswersErrorAndChangesNothing : Obligations.BadAccessAnswersErrorAndChangesNothing := by
  intro s
  refine ⟨fun off hoff => ?badOffset, fun w off => ⟨rfl, rfl⟩⟩
  case badOffset =>
    have unmapped := atOffset_eq_none_of_unmapped hoff
    exact ⟨by simp only [State.transact, State.hostRead, unmapped, Option.map_some],
      fun v => by simp only [State.transact, State.hostWrite, unmapped, Option.map_some]⟩

end Sys2Proof.Proofs
end

section
/-! Illegal words: accepted as any word is, then completed with `E_ILLCMD` (spec/60_exceptions.md rule R261). -/

namespace Sys2Proof.Proofs

open Sys2Proof.Machine

/-- Settles O18: Accept makes no check of the word, and Complete of an illegal word is `State.takeFault` alone. -/
theorem illegalWordIsAcceptedThenFaults : Obligations.IllegalWordIsAcceptedThenFaults := by
  intro s w hillegal hidle
  refine ⟨s.accept w, hostWrite_cmd_of_idle hidle w, rfl, ?complete⟩
  case complete =>
    calc (s.accept w).engineTurn
      _ = .next ((s.accept w).takeFault .illcmd) := engineTurn_illegal (s.accept_busy w) hillegal
      _ = .next { s with lastcmd := w, busy := false, done := true, err := 1, matched := false } := rfl

end Sys2Proof.Proofs
end

section
/-! The interrupt output: every Complete sets `DONE` and keeps `IE` (spec/60_exceptions.md rule R270). -/

namespace Sys2Proof.Proofs

open Sys2Proof.Machine

variable {s t u : State}

theorem irq_eq_ie_of_done (h : t.done = true) : t.irq = t.ie := by rw [State.irq, h, Bool.and_true]

theorem irq_eq_false_of_not_done (h : t.done = false) : t.irq = false := by rw [State.irq, h, Bool.and_false]

/-- No command writes `CTRL` (R104). -/
theorem commandWrites_ie {i : Instr} (h : CommandWrites s i u) : u.ie = s.ie := by
  induction h with
  | hotpvfy _ ih | totpvfy _ ih => exact ih
  | _ => rfl

theorem exec_done_ie {i : Instr} (h : exec i s = .next t) : t.done = true ∧ t.ie = s.ie := by
  obtain ⟨f, rfl⟩ | ⟨u, hu, rfl⟩ := exec_cases h
  · exact ⟨rfl, rfl⟩
  · exact ⟨rfl, u.succeed_ie.trans (commandWrites_ie hu)⟩

/-- A running command completes at the engine's turn, of a legal word or of an illegal one (R53, R261). -/
theorem engineTurn_done_ie (hbusy : s.busy = true) :
    ∃ t, s.engineTurn = .next t ∧ t.done = true ∧ t.ie = s.ie := by
  cases hword : decode s.lastcmd with
  | command i =>
    obtain ⟨r, hexec, -⟩ := exec_reports i s
    exact ⟨_, (engineTurn_command hbusy hword).trans hexec, exec_done_ie hexec⟩
  | illegal => exact ⟨_, engineTurn_illegal hbusy hword, rfl, rfl⟩

/-- Settles O49: after a Complete `DONE` is 1, so `irq` is `IE`; Accept, a write of 1 to bit 1 of `STATUS` and reset
clear `DONE`. -/
theorem interruptFollowsDone : Obligations.InterruptFollowsDone := by
  refine ⟨fun s => Bool.and_eq_true_iff, fun s hbusy => ?engineTurn, fun i s t hexec => ?exec,
    fun s w => irq_eq_false_of_not_done rfl, fun s v hbit => ?status, fun s => irq_eq_false_of_not_done rfl⟩
  case engineTurn =>
    obtain ⟨t, hturn, hdone, hie⟩ := engineTurn_done_ie hbusy
    exact ⟨t, hturn, hdone, hie, (irq_eq_ie_of_done hdone).trans hie⟩
  case exec =>
    obtain ⟨hdone, hie⟩ := exec_done_ie hexec
    exact ⟨hdone, (irq_eq_ie_of_done hdone).trans hie⟩
  case status =>
    rw [State.writeReg, if_pos hbit]
    exact irq_eq_false_of_not_done rfl

end Sys2Proof.Proofs
end

section
/-! Reset (spec/70_reset_and_hazards.md rule R300). -/

namespace Sys2Proof.Proofs

open Sys2Proof.Machine

/-- Settles O50: the fields after reset are those of the `State.resetEngine` laws, whatever the state before, and the
five buffers are the zero memory. -/
theorem resetGivesEveryPieceItsValue : Obligations.ResetGivesEveryPieceItsValue := by
  rintro s _ rfl
  refine ⟨?status, ?operands, ?lengthsAndResults, fun a => ?buffers⟩
  case status =>
    exact ⟨s.resetEngine_busy, s.resetEngine_done, s.resetEngine_matched, s.resetEngine_keyvalid,
      s.resetEngine_err, s.resetEngine_ie, irq_eq_false_of_not_done s.resetEngine_done, s.resetEngine_lastcmd⟩
  case operands =>
    exact ⟨s.resetEngine_digits, s.resetEngine_alg, s.resetEngine_period, s.resetEngine_epoch, s.resetEngine_ctr,
      s.resetEngine_time, s.resetEngine_tctr⟩
  case lengthsAndResults =>
    exact ⟨s.resetEngine_secretLen, s.resetEngine_digestLen, s.resetEngine_candLen, s.resetEngine_offset,
      s.resetEngine_value, s.resetEngine_code, s.resetEngine_strlen⟩
  case buffers =>
    simp only [State.resetEngine_secret, State.resetEngine_keyblk, State.resetEngine_digest,
      State.resetEngine_codestr, State.resetEngine_cand, Memory.read_zero, and_self]

end Sys2Proof.Proofs
end

section
/-! The decoder and the encoder, over all 32-bit words (spec/30_encoding.md rules R100 to R103). -/

namespace Sys2Proof.Proofs

open Sys2Proof.Machine

/-! ### The rows of the opcode map -/

/-- Every row compares the whole word, with the encoding of its command (R100, R101). -/
theorem opcodeTable_row : ∀ r ∈ opcodeTable, r.mask = BitVec.allOnes 32 ∧ r.pattern = encode r.instr := by decide

theorem selects_iff {r : OpcodeRow} (hr : r ∈ opcodeTable) (w : Word) : r.selects w = true ↔ w = encode r.instr := by
  obtain ⟨hmask, hpattern⟩ := opcodeTable_row r hr
  rw [OpcodeRow.selects, hmask, hpattern, BitVec.and_allOnes, beq_iff_eq]

/-- The row that is found for a word is that of the command whose encoding the word is. -/
theorem eq_encode_of_found {w : Word} {r : OpcodeRow} (h : opcodeTable.find? (fun r => r.selects w) = some r) :
    w = encode r.instr :=
  (selects_iff (List.mem_of_find?_eq_some h) w).1 (List.find?_some (p := fun r : OpcodeRow => r.selects w) h)

theorem decode_encode (i : Instr) : decode (encode i) = .command i := by
  cases i
  case nop => exact Laws.RoundTrip.nop.1
  case clear => exact Laws.RoundTrip.clear.1
  case keynorm => exact Laws.RoundTrip.keynorm.1
  case hmacctr => exact Laws.RoundTrip.hmacctr.1
  case extract => exact Laws.RoundTrip.extract.1
  case reduce => exact Laws.RoundTrip.reduce.1
  case render => exact Laws.RoundTrip.render.1
  case trunc => exact Laws.RoundTrip.trunc.1
  case compare => exact Laws.RoundTrip.compare.1
  case hotpgen => exact Laws.RoundTrip.hotpgen.1
  case hotpvfy => exact Laws.RoundTrip.hotpvfy.1
  case tstep => exact Laws.RoundTrip.tstep.1
  case totpgen => exact Laws.RoundTrip.totpgen.1
  case totpvfy => exact Laws.RoundTrip.totpvfy.1

theorem eq_encode_of_decode {w : Word} {i : Instr} (h : decode w = .command i) : w = encode i := by
  unfold decode at h
  split at h
  next r hrow =>
    obtain rfl := Decoded.command.inj h
    exact eq_encode_of_found hrow
  next => cases h

/-- Settles O2: a row selects no word but the encoding of its command, as its mask has every bit set. -/
theorem decodeAgreesWithEncode : Obligations.DecodeAgreesWithEncode := by
  intro w i
  refine ⟨eq_encode_of_decode, ?encoded⟩
  case encoded =>
    rintro rfl
    exact decode_encode i

/-- Settles O1: each word written out is the encoding of its command. -/
theorem opcodeMapDecodes : Obligations.OpcodeMapDecodes :=
  ⟨decode_encode .nop, decode_encode .clear, decode_encode .keynorm, decode_encode .hmacctr, decode_encode .extract,
    decode_encode .reduce, decode_encode .render, decode_encode .trunc, decode_encode .compare,
    decode_encode .hotpgen, decode_encode .hotpvfy, decode_encode .tstep, decode_encode .totpgen,
    decode_encode .totpvfy⟩

/-! ### Illegal words -/

/-- The values of the 14 opcodes, as rule R103 counts them. -/
def opcodeValues : List Nat :=
  [0x00, 0x01, 0x10, 0x11, 0x20, 0x21, 0x22, 0x23, 0x24, 0x30, 0x31, 0x40, 0x41, 0x42]

/-- A legal word has the value of an opcode: its reserved bits are 0 (R100). -/
theorem opcodeValues_eq : opcodeValues = opcodeTable.map fun r => (encode r.instr).toNat := by decide

theorem opcodeValues_lt : ∀ n ∈ opcodeValues, n < 256 := by decide

/-- A word is illegal exactly when no row selects it (R102). -/
theorem decode_eq_illegal_iff (w : Word) : decode w = .illegal ↔ w.toNat ∉ opcodeValues := by
  have noRow : decode w = .illegal ↔ ∀ r ∈ opcodeTable, w ≠ encode r.instr := by
    unfold decode
    split
    next r hrow =>
      exact iff_of_false nofun fun h => h r (List.mem_of_find?_eq_some hrow) (eq_encode_of_found hrow)
    next hnone =>
      exact iff_of_true rfl fun r hr heq => List.find?_eq_none.1 hnone r hr ((selects_iff hr w).2 heq)
  rw [noRow, opcodeValues_eq]
  simp only [List.mem_map, not_exists, not_and, ne_eq, ← BitVec.toNat_inj, eq_comm]

/-- Settles O3: the opcodes are below 256, so a word has an opcode's value exactly when what is above its low byte is 0
and the low byte is the opcode. -/
theorem illegalWordsAreExactlyTheUnassigned : Obligations.IllegalWordsAreExactlyTheUnassigned := by
  intro w
  show decode w = .illegal ↔ w.toNat / 256 ≠ 0 ∨ w.toNat % 256 ∉ opcodeValues
  rw [decode_eq_illegal_iff]
  by_cases small : w.toNat < 256
  case pos =>
    rw [Nat.div_eq_of_lt small, Nat.mod_eq_of_lt small]
    simp only [ne_eq, not_true_eq_false, false_or]
  case neg => exact iff_of_true (mt (opcodeValues_lt _) small) (.inl (by omega))

end Sys2Proof.Proofs
end

section
/-! The register map: which offsets have a register, and which register (spec/10_state.md rule R47; spec/20_memory.md
rules R72, R73, R80). -/

namespace Sys2Proof.Proofs

open Sys2Proof.Machine

theorem atOffset_eq_some_iff {off : Nat} {r : Reg} : Reg.atOffset off = some r ↔ Reg.offsetOf r = off := by
  refine ⟨offsetOf_of_atOffset, ?found⟩
  case found =>
    rintro rfl
    exact atOffset_offsetOf r

/-- Settles O4: `atOffset_eq_some_iff` says it of one offset and one register. -/
theorem registerMapIsOneToOne : Obligations.RegisterMapIsOneToOne := fun _ _ => atOffset_eq_some_iff

/-- An aligned offset in the window has a register unless it is reserved: outside the four buffers every word of the
window up to `0x064` is a register of its own (R47). -/
theorem unmapped_of_atOffset_eq_none {off : Nat} (h : Reg.atOffset off = none) :
    off % 4 ≠ 0 ∨ 0x200 ≤ off ∨ off = 0x078 ∨ off = 0x07C ∨ (0x0C0 ≤ off ∧ off ≤ 0x0FC) := by
  unfold Reg.atOffset at h
  split_ifs at h with misaligned codestr cand digest secret
  case pos => exact .inl misaligned
  case neg =>
    have noRegister : ∀ r ∈ scalarRegs, Reg.offsetOf r ≠ off := by simpa using List.find?_eq_none.1 h
    simp only [scalarRegs, List.cons_append, List.nil_append, List.forall_mem_cons, Reg.offsetOf] at noRegister
    omega

/-- Settles O5: both directions of the map's domain. -/
theorem errorOffsetsAreExactlyTheUnmapped : Obligations.ErrorOffsetsAreExactlyTheUnmapped := fun _ =>
  ⟨unmapped_of_atOffset_eq_none, atOffset_eq_none_of_unmapped⟩

end Sys2Proof.Proofs
end

section
/-! Host reads: the word each register reads as (spec/20_memory.md rule R72; spec/10_state.md rule R23). -/

namespace Sys2Proof.Proofs

open Sys2Proof.Machine

variable {s : State}

/-! ### The `STATUS` word -/

theorem bitWord_toNat (b : Bool) : (bitWord b).toNat = b.toNat := by cases b <;> rfl

/-- A field laid above a word that ends below it adds its value at its place. -/
theorem or_shiftLeft_toNat {a b : Word} {n : Nat} (ha : a.toNat < 2 ^ n) (hb : b.toNat * 2 ^ n < 2 ^ 32) :
    (a ||| b <<< n).toNat = a.toNat + b.toNat * 2 ^ n := by
  rw [BitVec.toNat_or, BitVec.toNat_shiftLeft, Nat.mod_eq_of_lt (by rwa [Nat.shiftLeft_eq]), Nat.or_comm,
    or_shift _ _ _ ha, Nat.add_comm]

theorem or_flag_toNat {a : Word} {n : Nat} (b : Bool) (ha : a.toNat < 2 ^ n) (hn : n ≤ 30) :
    (a ||| bitWord b <<< n).toNat = a.toNat + b.toNat * 2 ^ n := by
  have fits : b.toNat * 2 ^ n ≤ 1 * 2 ^ 30 :=
    Nat.mul_le_mul b.toNat_le (Nat.pow_le_pow_right (by decide) hn)
  rw [or_shiftLeft_toNat ha (by rw [bitWord_toNat]; omega), bitWord_toNat]

/-- The word is put together flag by flag, each above those before it. -/
theorem statusWord_toNat (s : State) :
    s.statusWord.toNat =
      s.busy.toNat + 2 * s.done.toNat + 4 * s.matched.toNat + 8 * s.keyvalid.toNat + 256 * s.err.toNat := by
  have hbusy := s.busy.toNat_lt
  have hdone := s.done.toNat_lt
  have hmatched := s.matched.toNat_lt
  have hkeyvalid := s.keyvalid.toNat_lt
  have herr : (s.err.setWidth 32).toNat = s.err.toNat := BitVec.toNat_setWidth_of_le (by decide)
  have err_lt := s.err.isLt
  have upToBusy := bitWord_toNat s.busy
  have upToDone := or_flag_toNat (n := 1) s.done (by omega : (bitWord s.busy).toNat < _) (by decide)
  have upToMatch := or_flag_toNat (n := 2) s.matched (by rw [upToDone]; omega) (by decide)
  have upToKeyvalid := or_flag_toNat (n := 3) s.keyvalid (by rw [upToMatch]; omega) (by decide)
  rw [State.statusWord, or_shiftLeft_toNat (by omega) (by omega)]
  omega

/-- Settles O12: `STATUS` reads as `State.statusWord`. -/
theorem statusWordLayout : Obligations.StatusWordLayout := statusWord_toNat

/-! ### The answers -/

theorem openWhileBusy_eq_true_iff {r : Reg} :
    Reg.openWhileBusy r = true ↔ r = .id ∨ r = .status ∨ r = .ctrl ∨ r = .lastcmd := by
  cases r <;> simp [Reg.openWhileBusy]

/-- An access is performed at once on an idle engine, and while a command runs on the four registers that stay open
(R74). -/
theorem holds_eq_false_of {r : Reg}
    (h : s.busy = false ∨ r = .id ∨ r = .status ∨ r = .ctrl ∨ r = .lastcmd) : s.holds r = false := by
  obtain hidle | hopen := h
  · exact holds_idle r hidle
  · exact holds_open (openWhileBusy_eq_true_iff.2 hopen)

theorem hostRead_of_unmapped {off : Nat} (h : Reg.atOffset off = none) : s.hostRead off = some (.error, 0) := by
  rw [State.hostRead, h]

theorem hostRead_of_mapped {off : Nat} {r : Reg} (h : Reg.atOffset off = some r) :
    s.hostRead off = if s.holds r then none else some (.okay, s.readReg r) := by
  rw [State.hostRead, h]

theorem transact_read {r : Reg} (hh : s.holds r = false) :
    s.transact (.read (Reg.offsetOf r)) = some (.read .okay (s.readReg r), s) := by
  rw [State.transact, hostRead_open r hh, Option.map_some]

theorem answersRead_offsetOf {r : Reg} {value : Nat} (hh : s.holds r = false) (hv : (s.readReg r).toNat = value) :
    s.answersRead (Reg.offsetOf r) value := by
  refine answersRead_of_register (atOffset_offsetOf r) hh ?_
  rw [← hv, BitVec.ofNat_toNat, BitVec.setWidth_eq]

/-- A field shorter than a word reads as its value (R46). -/
theorem setWidth_word_toNat {n : Nat} (x : BitVec n) (hn : n ≤ 32) : (x.setWidth 32).toNat = x.toNat :=
  BitVec.toNat_setWidth_of_le hn

/-- Settles O7: the word of each register is its field, by the laws of its kind: `STATUS` is its flags, a short field
is extended, a 64-bit register is read by halves, and a buffer by words of four bytes. -/
theorem readsHaveNoSideEffects : Obligations.ReadsHaveNoSideEffects := by
  intro s
  refine ⟨fun r hr => transact_read (holds_eq_false_of hr), ?alwaysOpen, fun hidle => ?idle⟩
  case alwaysOpen =>
    exact ⟨answersRead_offsetOf (r := .id) (holds_open rfl) rfl,
      answersRead_offsetOf (r := .status) (holds_open rfl) (statusWord_toNat s),
      answersRead_offsetOf (r := .ctrl) (holds_open rfl) (bitWord_toNat s.ie),
      answersRead_offsetOf (r := .lastcmd) (holds_open rfl) rfl⟩
  case idle =>
    have answers (r : Reg) {value : Nat} (hv : (s.readReg r).toNat = value) : s.answersRead (Reg.offsetOf r) value :=
      answersRead_offsetOf (holds_idle r hidle) hv
    refine ⟨⟨?cmd, ?digits, ?alg, ?period⟩, ⟨?ctrLo, ?ctrHi, ?timeLo, ?timeHi, ?epochLo, ?epochHi, ?tctrLo, ?tctrHi⟩,
      ⟨?secretLen, ?digestLen, ?offset, ?value, ?code, ?strlen, ?candLen⟩, fun k hk => ?codestr, fun k hk => ?cand,
      fun k hk => ?digest, fun k hk => ?secret⟩
    case cmd => exact answers .cmd rfl
    case digits => exact answers .digits (setWidth_word_toNat s.digits (by decide))
    case alg => exact answers .alg (setWidth_word_toNat s.alg (by decide))
    case period => exact answers .period rfl
    case ctrLo => exact answers .ctrLo (lowWord_toNat s.ctr)
    case ctrHi => exact answers .ctrHi (highWord_toNat s.ctr)
    case timeLo => exact answers .timeLo (lowWord_toNat s.time)
    case timeHi => exact answers .timeHi (highWord_toNat s.time)
    case epochLo => exact answers .epochLo (lowWord_toNat s.epoch)
    case epochHi => exact answers .epochHi (highWord_toNat s.epoch)
    case tctrLo => exact answers .tctrLo (lowWord_toNat s.tctr)
    case tctrHi => exact answers .tctrHi (highWord_toNat s.tctr)
    case secretLen => exact answers .secretLen (setWidth_word_toNat s.secretLen (by decide))
    case digestLen => exact answers .digestLen (setWidth_word_toNat s.digestLen (by decide))
    case offset => exact answers .offset (setWidth_word_toNat s.offset (by decide))
    case value => exact answers .value (setWidth_word_toNat s.value (by decide))
    case code => exact answers .code rfl
    case strlen => exact answers .strlen (setWidth_word_toNat s.strlen (by decide))
    case candLen => exact answers .candLen (setWidth_word_toNat s.candLen (by decide))
    case codestr => exact answers (.codestr ⟨k, hk⟩) (bufferWord_toNat s.codestr k)
    case cand => exact answers (.cand ⟨k, hk⟩) (bufferWord_toNat s.cand k)
    case digest => exact answers (.digest ⟨k, hk⟩) (bufferWord_toNat s.digest k)
    case secret => exact answers (.secret ⟨k, hk⟩) rfl

end Sys2Proof.Proofs
end

section
/-! Host writes: what each register's write leaves in the state, and what the register reads as afterwards
(spec/20_memory.md rule R73; spec/10_state.md rule R46). -/

namespace Sys2Proof.Proofs

open Sys2Proof.Machine

variable {s : State}

/-! ### The fields set -/

theorem hostWrite_of_unmapped {off : Nat} (v : Word) (h : Reg.atOffset off = none) :
    s.hostWrite off v = some (.error, s) := by
  rw [State.hostWrite, h]

theorem hostWrite_of_mapped {off : Nat} {r : Reg} (v : Word) (h : Reg.atOffset off = some r) :
    s.hostWrite off v = if s.holds r then none else some (.okay, s.writeReg r v) := by
  rw [State.hostWrite, h]

theorem transact_write {r : Reg} (v : Word) (hh : s.holds r = false) :
    s.transact (.write (Reg.offsetOf r) v) = some (.write .okay, s.writeReg r v) := by
  rw [State.transact, hostWrite_open r v hh, Option.map_some]

theorem answersWrite_offsetOf {r : Reg} {v : Word} {t : State} (hh : s.holds r = false) (ht : s.writeReg r v = t) :
    s.answersWrite (Reg.offsetOf r) v t :=
  answersWrite_of_register (atOffset_offsetOf r) hh ht

theorem writeReg_status_of_set {v : Word} (h : v.getLsbD 1 = true) :
    s.writeReg .status v = { s with done := false } := if_pos h

theorem writeReg_status_of_clear {v : Word} (h : v.getLsbD 1 = false) : s.writeReg .status v = s :=
  if_neg (Bool.not_eq_true _ ▸ h)

/-- Clearing a `DONE` that is 0 changes nothing (R309). -/
theorem writeReg_status_of_not_done {v : Word} (h : s.done = false) : s.writeReg .status v = s := by
  cases hbit : v.getLsbD 1
  case false => exact writeReg_status_of_clear hbit
  case true => rw [writeReg_status_of_set hbit, ← h]

theorem setLowWord_eq_ofNat (x : DWord) (v : Word) :
    setLowWord x v = BitVec.ofNat 64 (x.toNat / 2 ^ 32 * 2 ^ 32 + v.toNat) := by
  rw [← setLowWord_toNat, BitVec.ofNat_toNat, BitVec.setWidth_eq]

theorem setHighWord_eq_ofNat (x : DWord) (v : Word) :
    setHighWord x v = BitVec.ofNat 64 (v.toNat * 2 ^ 32 + x.toNat % 2 ^ 32) := by
  rw [← setHighWord_toNat, BitVec.ofNat_toNat, BitVec.setWidth_eq]

/-- Settles O59: each write is that of `State.writeReg`, where a short field takes the low bits of the word, a 64-bit
register one half (`setLowWord_eq_ofNat`, `setHighWord_eq_ofNat`) and a buffer the word's lanes (`setWord_hasLanes`). -/
theorem writesSetExactlyTheListedField : Obligations.WritesSetExactlyTheListedField := by
  intro s v
  refine ⟨⟨?id, fun hset => ?done, fun hclear => ?keepsDone, fun _ hdone => ?notDone, ?ctrl, ?lastcmd⟩,
    fun hidle => ?idle⟩
  case id => exact answersWrite_offsetOf (r := .id) (holds_open rfl) rfl
  case done => exact answersWrite_offsetOf (r := .status) (holds_open rfl) (writeReg_status_of_set hset)
  case keepsDone => exact answersWrite_offsetOf (r := .status) (holds_open rfl) (writeReg_status_of_clear hclear)
  case notDone => exact answersWrite_offsetOf (r := .status) (holds_open rfl) (writeReg_status_of_not_done hdone)
  case ctrl => exact answersWrite_offsetOf (r := .ctrl) (holds_open rfl) rfl
  case lastcmd => exact answersWrite_offsetOf (r := .lastcmd) (holds_open rfl) rfl
  case idle =>
    have answers (r : Reg) {t : State} (ht : s.writeReg r v = t) : s.answersWrite (Reg.offsetOf r) v t :=
      answersWrite_offsetOf (holds_idle r hidle) ht
    refine ⟨⟨answers .cmd rfl, ?digits, ?alg, answers .period rfl⟩,
      ⟨?ctrLo, ?ctrHi, ?timeLo, ?timeHi, ?epochLo, ?epochHi, answers .tctrLo rfl, answers .tctrHi rfl⟩,
      ⟨?secretLen, ?digestLen, answers .offset rfl, ?value, answers .code rfl, answers .strlen rfl,
        answers (.codestr 0) rfl, answers (.codestr 1) rfl, answers (.codestr 2) rfl, ?candLen⟩,
      fun k hk => ⟨_, setWord_hasLanes s.cand k v, answers (.cand ⟨k, hk⟩) rfl⟩,
      fun k hk => ⟨_, setWord_hasLanes s.digest k v, answers (.digest ⟨k, hk⟩) rfl⟩,
      fun k hk => ⟨_, setWord_hasLanes s.secret k v, answers (.secret ⟨k, hk⟩) rfl⟩⟩
    case digits => exact answers .digits (by rw [BitVec.ofNat_toNat]; rfl)
    case alg => exact answers .alg (by rw [BitVec.ofNat_toNat]; rfl)
    case ctrLo => exact answers .ctrLo (by rw [← setLowWord_eq_ofNat]; rfl)
    case ctrHi => exact answers .ctrHi (by rw [← setHighWord_eq_ofNat]; rfl)
    case timeLo => exact answers .timeLo (by rw [← setLowWord_eq_ofNat]; rfl)
    case timeHi => exact answers .timeHi (by rw [← setHighWord_eq_ofNat]; rfl)
    case epochLo => exact answers .epochLo (by rw [← setLowWord_eq_ofNat]; rfl)
    case epochHi => exact answers .epochHi (by rw [← setHighWord_eq_ofNat]; rfl)
    case secretLen => exact answers .secretLen (by rw [BitVec.ofNat_toNat]; rfl)
    case digestLen => exact answers .digestLen (by rw [BitVec.ofNat_toNat]; rfl)
    case value => exact answers .value (by rw [BitVec.ofNat_toNat]; rfl)
    case candLen => exact answers .candLen (by rw [BitVec.ofNat_toNat]; rfl)

/-! ### Reading back -/

/-- What is left of a word in a field of its low `n` bits (R46). -/
theorem setWidth_setWidth_word (v : Word) {n : Nat} (hn : n ≤ 32) :
    (v.setWidth n).setWidth 32 = v &&& BitVec.ofNat 32 (2 ^ n - 1) := by
  apply BitVec.eq_of_toNat_eq
  have pow_le : 2 ^ n ≤ 2 ^ 32 := Nat.pow_le_pow_right (by decide) hn
  have pow_pos : 0 < 2 ^ n := Nat.two_pow_pos n
  rw [setWidth_word_toNat _ hn, BitVec.toNat_setWidth, BitVec.toNat_and, BitVec.toNat_ofNat,
    Nat.mod_eq_of_lt (by omega : 2 ^ n - 1 < 2 ^ 32), Nat.and_two_pow_sub_one_eq_mod]

theorem bitWord_getLsbD_zero (v : Word) : bitWord (v.getLsbD 0) = v &&& 1 := by
  apply BitVec.eq_of_toNat_eq
  rw [bitWord_toNat, BitVec.toNat_and, show (1 : Word).toNat = 2 ^ 1 - 1 from rfl, Nat.and_two_pow_sub_one_eq_mod,
    BitVec.getLsbD, Nat.testBit_zero]
  rcases Nat.mod_two_eq_zero_or_one v.toNat with h | h <;> simp [h]

/-- `DONE` is bit 1 of `STATUS` and no other field is there (R23). -/
theorem statusWord_clear_done (s : State) : { s with done := false }.statusWord = s.statusWord &&& ~~~2 := by
  have flags : ∀ (busy done matched keyvalid : Bool) (err : BitVec 4),
      bitWord busy ||| bitWord false <<< 1 ||| bitWord matched <<< 2 ||| bitWord keyvalid <<< 3 |||
          err.setWidth 32 <<< 8 =
        (bitWord busy ||| bitWord done <<< 1 ||| bitWord matched <<< 2 ||| bitWord keyvalid <<< 3 |||
          err.setWidth 32 <<< 8) &&& ~~~2 := by decide
  exact flags s.busy s.done s.matched s.keyvalid s.err

theorem statusBit_eq (v : Word) : v &&& 2 = if v.getLsbD 1 then 2 else 0 := BitVec.and_twoPow v 1

theorem readReg_writeReg_status (s : State) (v : Word) :
    (s.writeReg .status v).readReg .status = s.readReg .status &&& ~~~(v &&& 2) := by
  rw [statusBit_eq]
  cases hbit : v.getLsbD 1
  case true =>
    rw [writeReg_status_of_set hbit]
    exact statusWord_clear_done s
  case false =>
    rw [writeReg_status_of_clear hbit]
    exact (BitVec.and_allOnes).symm

/-- Settles O8: a field reads back as the bits of the word that it holds; and as only a write to `CMD` makes the engine
busy, the read is performed when the write is. -/
theorem writeThenReadBack : Obligations.WriteThenReadBack := by
  intro s r v hcmd hr
  have busy_eq : (s.writeReg r v).busy = s.busy := by rw [State.writeReg_busy, beq_false_of_ne hcmd, Bool.or_false]
  have written := hostWrite_open r v (holds_eq_false_of hr)
  have read := hostRead_open r (holds_eq_false_of (s := s.writeReg r v) (busy_eq ▸ hr))
  refine ⟨_, written, busy_eq, read.trans (congrArg (fun w => some (BusStatus.okay, w)) ?word)⟩
  case word =>
    cases r
    case cmd => exact absurd rfl hcmd
    case status => exact readReg_writeReg_status s v
    case ctrl => exact bitWord_getLsbD_zero v
    case digits | digestLen | candLen => exact setWidth_setWidth_word (n := 8) v (by decide)
    case alg => exact setWidth_setWidth_word (n := 2) v (by decide)
    case secretLen => exact setWidth_setWidth_word (n := 16) v (by decide)
    case value => exact setWidth_setWidth_word (n := 31) v (by decide)
    case ctrLo | timeLo | epochLo => exact lowWord_setLowWord _ v
    case ctrHi | timeHi | epochHi => exact highWord_setHighWord _ v
    case cand k | digest k => exact Memory.word_setWord_same _ k.val v
    case id | lastcmd | period | tctrLo | tctrHi | offset | code | strlen | codestr | secret => rfl

end Sys2Proof.Proofs
end

section
/-! What a register write leaves alone, field by field (spec/20_memory.md rule R73; spec/10_state.md rule R49). -/

namespace Sys2Proof.Proofs

open Sys2Proof.Machine

variable (s : State) {r : Reg} (v : Word)

/-- What `DONE` does not show in, a write to `STATUS` leaves: it can only clear `DONE` (R73). -/
theorem writeReg_status_keeps {α : Type} (field : State → α) (hfield : field { s with done := false } = field s) :
    field (s.writeReg .status v) = field s := by
  cases hbit : v.getLsbD 1
  case true => rw [writeReg_status_of_set hbit, hfield]
  case false => rw [writeReg_status_of_clear hbit]

/-- The host sets no outcome of a command but by the Accept of another, and no part of the model outside the engine. -/
theorem writeReg_frame (hcmd : r ≠ .cmd) :
    s.writeReg r v =
      { s.writeReg r v with
        busy := s.busy, matched := s.matched, err := s.err, lastcmd := s.lastcmd, tctr := s.tctr, offset := s.offset
        strlen := s.strlen, codestr := s.codestr, keyblk := s.keyblk
        hostQueue := s.hostQueue, schedule := s.schedule, responses := s.responses } := by
  cases r
  case cmd => exact absurd rfl hcmd
  case status =>
    rw [State.writeReg]
    split <;> rfl
  all_goals rfl

/-- No host write reaches these results of a command, the Accept included (R52, R73). -/
theorem writeReg_results (r : Reg) :
    (s.writeReg r v).tctr = s.tctr ∧ (s.writeReg r v).strlen = s.strlen ∧ (s.writeReg r v).codestr = s.codestr := by
  obtain rfl | hcmd := eq_or_ne r .cmd
  · exact ⟨rfl, rfl, rfl⟩
  · rw [writeReg_frame s v hcmd]
    exact ⟨rfl, rfl, rfl⟩

/-! ### The fields of one register -/

theorem writeReg_done (hcmd : r ≠ .cmd) (hr : r ≠ .status) : (s.writeReg r v).done = s.done := by
  cases r
  case cmd | status => contradiction
  all_goals rfl

theorem writeReg_ie (hr : r ≠ .ctrl) : (s.writeReg r v).ie = s.ie := by
  cases r
  case ctrl => contradiction
  case status => exact writeReg_status_keeps s v State.ie rfl
  all_goals rfl

theorem writeReg_digits (hr : r ≠ .digits) : (s.writeReg r v).digits = s.digits := by
  cases r
  case digits => contradiction
  case status => exact writeReg_status_keeps s v State.digits rfl
  all_goals rfl

theorem writeReg_alg (hr : r ≠ .alg) : (s.writeReg r v).alg = s.alg := by
  cases r
  case alg => contradiction
  case status => exact writeReg_status_keeps s v State.alg rfl
  all_goals rfl

theorem writeReg_period (hr : r ≠ .period) : (s.writeReg r v).period = s.period := by
  cases r
  case period => contradiction
  case status => exact writeReg_status_keeps s v State.period rfl
  all_goals rfl

theorem writeReg_secretLen (hr : r ≠ .secretLen) : (s.writeReg r v).secretLen = s.secretLen := by
  cases r
  case secretLen => contradiction
  case status => exact writeReg_status_keeps s v State.secretLen rfl
  all_goals rfl

theorem writeReg_digestLen (hr : r ≠ .digestLen) : (s.writeReg r v).digestLen = s.digestLen := by
  cases r
  case digestLen => contradiction
  case status => exact writeReg_status_keeps s v State.digestLen rfl
  all_goals rfl

theorem writeReg_candLen (hr : r ≠ .candLen) : (s.writeReg r v).candLen = s.candLen := by
  cases r
  case candLen => contradiction
  case status => exact writeReg_status_keeps s v State.candLen rfl
  all_goals rfl

theorem writeReg_value (hr : r ≠ .value) : (s.writeReg r v).value = s.value := by
  cases r
  case value => contradiction
  case status => exact writeReg_status_keeps s v State.value rfl
  all_goals rfl

theorem writeReg_code (hr : r ≠ .code) : (s.writeReg r v).code = s.code := by
  cases r
  case code => contradiction
  case status => exact writeReg_status_keeps s v State.code rfl
  all_goals rfl

/-! ### The 64-bit registers -/

theorem writeReg_ctr (hlo : r ≠ .ctrLo) (hhi : r ≠ .ctrHi) : (s.writeReg r v).ctr = s.ctr := by
  cases r
  case ctrLo | ctrHi => contradiction
  case status => exact writeReg_status_keeps s v State.ctr rfl
  all_goals rfl

theorem writeReg_time (hlo : r ≠ .timeLo) (hhi : r ≠ .timeHi) : (s.writeReg r v).time = s.time := by
  cases r
  case timeLo | timeHi => contradiction
  case status => exact writeReg_status_keeps s v State.time rfl
  all_goals rfl

theorem writeReg_epoch (hlo : r ≠ .epochLo) (hhi : r ≠ .epochHi) : (s.writeReg r v).epoch = s.epoch := by
  cases r
  case epochLo | epochHi => contradiction
  case status => exact writeReg_status_keeps s v State.epoch rfl
  all_goals rfl

/-! ### `KEYVALID` -/

/-- Every write to what the key block is made of clears `KEYVALID`, and no other write touches it (R45). -/
theorem writeReg_keyvalid : (s.writeReg r v).keyvalid = if Reg.feedsKey r then false else s.keyvalid := by
  cases r
  case status => exact writeReg_status_keeps s v State.keyvalid rfl
  all_goals rfl

theorem feedsKey_eq_false (halg : r ≠ .alg) (hlen : r ≠ .secretLen) (hsecret : ∀ k, r ≠ .secret k) :
    Reg.feedsKey r = false := by
  cases r
  case alg | secretLen => contradiction
  case secret k => exact absurd rfl (hsecret k)
  all_goals rfl

/-! ### The buffers -/

/-- `SetWord` leaves every byte outside its word (R76). -/
theorem setWord_read_outside (m : Memory) {k a : Nat} (h : a < 4 * k ∨ 4 * k + 4 ≤ a) :
    (m.setWord k v).read a = m.read a := by
  rw [Memory.read_setWord, if_neg (by omega)]

theorem writeReg_cand (hr : ∀ k, r ≠ .cand k) : (s.writeReg r v).cand = s.cand := by
  cases r
  case cand k => exact absurd rfl (hr k)
  case status => exact writeReg_status_keeps s v State.cand rfl
  all_goals rfl

theorem writeReg_digest (hr : ∀ k, r ≠ .digest k) : (s.writeReg r v).digest = s.digest := by
  cases r
  case digest k => exact absurd rfl (hr k)
  case status => exact writeReg_status_keeps s v State.digest rfl
  all_goals rfl

theorem writeReg_secret (hr : ∀ k, r ≠ .secret k) : (s.writeReg r v).secret = s.secret := by
  cases r
  case secret k => exact absurd rfl (hr k)
  case status => exact writeReg_status_keeps s v State.secret rfl
  all_goals rfl

theorem writeReg_cand_read {a : Nat} (hr : ∀ k, r = .cand k → a < 4 * k.val ∨ 4 * k.val + 4 ≤ a) :
    (s.writeReg r v).cand.read a = s.cand.read a := by
  by_cases hcand : ∃ k, r = .cand k
  case pos =>
    obtain ⟨k, rfl⟩ := hcand
    exact setWord_read_outside v s.cand (hr k rfl)
  case neg => rw [writeReg_cand s v (not_exists.1 hcand)]

theorem writeReg_digest_read {a : Nat} (hr : ∀ k, r = .digest k → a < 4 * k.val ∨ 4 * k.val + 4 ≤ a) :
    (s.writeReg r v).digest.read a = s.digest.read a := by
  by_cases hdigest : ∃ k, r = .digest k
  case pos =>
    obtain ⟨k, rfl⟩ := hdigest
    exact setWord_read_outside v s.digest (hr k rfl)
  case neg => rw [writeReg_digest s v (not_exists.1 hdigest)]

theorem writeReg_secret_read {a : Nat} (hr : ∀ k, r = .secret k → a < 4 * k.val ∨ 4 * k.val + 4 ≤ a) :
    (s.writeReg r v).secret.read a = s.secret.read a := by
  by_cases hsecret : ∃ k, r = .secret k
  case pos =>
    obtain ⟨k, rfl⟩ := hsecret
    exact setWord_read_outside v s.secret (hr k rfl)
  case neg => rw [writeReg_secret s v (not_exists.1 hsecret)]

end Sys2Proof.Proofs
end

section
/-! A write to one register leaves what every other one reads as (spec/10_state.md rule R49). -/

namespace Sys2Proof.Proofs

open Sys2Proof.Machine

variable (s : State) {r r' : Reg} (v : Word)

/-- The words of a buffer are registers of their own: they have different bytes. -/
theorem readReg_cand_of_ne {k : Fin 4} (hne : .cand k ≠ r) :
    (s.writeReg r v).readReg (.cand k) = s.readReg (.cand k) := by
  by_cases hcand : ∃ j, r = .cand j
  case pos =>
    obtain ⟨j, rfl⟩ := hcand
    exact Memory.word_setWord_other s.cand v fun heq => hne (congrArg Reg.cand (Fin.ext heq))
  case neg => exact congrArg (Memory.word · k.val) (writeReg_cand s v (not_exists.1 hcand))

theorem readReg_digest_of_ne {k : Fin 16} (hne : .digest k ≠ r) :
    (s.writeReg r v).readReg (.digest k) = s.readReg (.digest k) := by
  by_cases hdigest : ∃ j, r = .digest j
  case pos =>
    obtain ⟨j, rfl⟩ := hdigest
    exact Memory.word_setWord_other s.digest v fun heq => hne (congrArg Reg.digest (Fin.ext heq))
  case neg => exact congrArg (Memory.word · k.val) (writeReg_digest s v (not_exists.1 hdigest))

/-- The halves of a 64-bit register are registers of their own (R77); every other register has its own field. -/
theorem readReg_writeReg_of_ne (hcmd : r ≠ .cmd) (hne : r' ≠ r) (hstatus : r' ≠ .status) :
    (s.writeReg r v).readReg r' = s.readReg r' := by
  cases r'
  case status => contradiction
  case id | cmd | secret => rfl
  case lastcmd | tctrLo | tctrHi | offset | strlen | codestr =>
    rw [writeReg_frame s v hcmd]
    rfl
  case ctrl => exact congrArg bitWord (writeReg_ie s v hne.symm)
  case digits => exact congrArg (BitVec.setWidth 32) (writeReg_digits s v hne.symm)
  case alg => exact congrArg (BitVec.setWidth 32) (writeReg_alg s v hne.symm)
  case period => exact writeReg_period s v hne.symm
  case secretLen => exact congrArg (BitVec.setWidth 32) (writeReg_secretLen s v hne.symm)
  case digestLen => exact congrArg (BitVec.setWidth 32) (writeReg_digestLen s v hne.symm)
  case candLen => exact congrArg (BitVec.setWidth 32) (writeReg_candLen s v hne.symm)
  case value => exact congrArg (BitVec.setWidth 32) (writeReg_value s v hne.symm)
  case code => exact writeReg_code s v hne.symm
  case cand => exact readReg_cand_of_ne s v hne
  case digest => exact readReg_digest_of_ne s v hne
  case ctrLo =>
    obtain rfl | hother := eq_or_ne r .ctrHi
    · exact lowWord_setHighWord s.ctr v
    · exact congrArg lowWord (writeReg_ctr s v hne.symm hother)
  case ctrHi =>
    obtain rfl | hother := eq_or_ne r .ctrLo
    · exact highWord_setLowWord s.ctr v
    · exact congrArg highWord (writeReg_ctr s v hother hne.symm)
  case timeLo =>
    obtain rfl | hother := eq_or_ne r .timeHi
    · exact lowWord_setHighWord s.time v
    · exact congrArg lowWord (writeReg_time s v hne.symm hother)
  case timeHi =>
    obtain rfl | hother := eq_or_ne r .timeLo
    · exact highWord_setLowWord s.time v
    · exact congrArg highWord (writeReg_time s v hother hne.symm)
  case epochLo =>
    obtain rfl | hother := eq_or_ne r .epochHi
    · exact lowWord_setHighWord s.epoch v
    · exact congrArg lowWord (writeReg_epoch s v hne.symm hother)
  case epochHi =>
    obtain rfl | hother := eq_or_ne r .epochLo
    · exact highWord_setLowWord s.epoch v
    · exact congrArg highWord (writeReg_epoch s v hother hne.symm)

/-- Settles O9: the frame of a register write, and one law for each field and each buffer. -/
theorem registersNeverAlias : Obligations.RegistersNeverAlias := by
  rintro s _ r v hcmd rfl
  refine ⟨fun r' => readReg_writeReg_of_ne s v hcmd, ?outcomes, ?outside, writeReg_done s v hcmd, ?keyvalid,
    writeReg_ie s v, writeReg_digits s v, writeReg_alg s v, writeReg_period s v, writeReg_ctr s v, writeReg_time s v,
    writeReg_epoch s v, writeReg_secretLen s v, writeReg_digestLen s v, writeReg_candLen s v, writeReg_value s v,
    writeReg_code s v, fun a => writeReg_cand_read s v, fun a => writeReg_digest_read s v,
    fun a => writeReg_secret_read s v⟩
  case outcomes =>
    rw [writeReg_frame s v hcmd]
    exact ⟨rfl, rfl, rfl, rfl, rfl, rfl, rfl, rfl, rfl⟩
  case outside => exact ⟨s.writeReg_hostQueue r v, s.writeReg_schedule r v, s.writeReg_responses r v⟩
  case keyvalid =>
    intro halg hlen hsecret
    rw [writeReg_keyvalid, feedsKey_eq_false halg hlen hsecret, if_neg Bool.false_ne_true]

end Sys2Proof.Proofs
end

section
/-! Commands as steps: every command completes, with the writes of its rule when it takes no fault (spec/10_state.md
rule R53; spec/60_exceptions.md rules R262, R269). -/

namespace Sys2Proof.Proofs

open Sys2Proof.Machine

variable {i : Instr} {s t u : State}

theorem errCode_ne_zero (f : CommandFault) : f.errCode ≠ 0 := by cases f <;> decide

/-- A command that ends with no error code made the writes of its rule, with their checks (R53, R104). -/
theorem commandWrites_of_exec (h : exec i s = .next t) (herr : t.err = 0) :
    ∃ u, CommandWrites s i u ∧ t = u.succeed := by
  obtain ⟨f, rfl⟩ | writes := exec_cases h
  · exact absurd herr (errCode_ne_zero f)
  · exact writes

/-- A command makes one choice of writes. -/
theorem eq_succeed_of_exec (h : exec i s = .next t) (hu : CommandWrites s i u) : t = u.succeed :=
  (Host.Outcome.next.inj ((exec_of_writes hu).symm.trans h)).symm

theorem exec_answers (i : Instr) (s : State) : ∃ t, exec i s = .next t := by
  obtain ⟨r, hexec, -⟩ := exec_reports i s
  exact ⟨_, hexec⟩

/-- Settles O22: a command that ends with an error code did not make its writes, so it took a fault. -/
theorem faultsArePrecise : Obligations.FaultsArePrecise := by
  intro i s t hexec herr
  obtain ⟨f, rfl⟩ | ⟨u, -, rfl⟩ := exec_cases hexec
  · rfl
  · exact absurd u.succeed_err herr

/-! ### What no command writes -/

/-- The writes of every command fall on the secret, the candidate and the results; all else is as before (R104). -/
theorem commandWrites_frame (h : CommandWrites s i u) :
    u = { s with
          matched := u.matched, keyvalid := u.keyvalid, secretLen := u.secretLen, digestLen := u.digestLen
          candLen := u.candLen, tctr := u.tctr, offset := u.offset, value := u.value, code := u.code
          strlen := u.strlen, codestr := u.codestr, cand := u.cand, digest := u.digest, secret := u.secret
          keyblk := u.keyblk } := by
  induction h with
  | hotpvfy _ ih | totpvfy _ ih => exact congrArg State.setMatch ih
  | totpgen => ext1 <;> simp
  | _ => rfl

/-- What a command leaves alone in every case, fault or not, and the end of it (R53, R104). -/
theorem exec_frame (h : exec i s = .next t) :
    t = { s with
          busy := false, done := true, err := t.err
          matched := t.matched, keyvalid := t.keyvalid, secretLen := t.secretLen, digestLen := t.digestLen
          candLen := t.candLen, tctr := t.tctr, offset := t.offset, value := t.value, code := t.code
          strlen := t.strlen, codestr := t.codestr, cand := t.cand, digest := t.digest, secret := t.secret
          keyblk := t.keyblk } := by
  obtain ⟨f, rfl⟩ | ⟨u, hu, rfl⟩ := exec_cases h
  · rfl
  · exact congrArg State.succeed (commandWrites_frame hu)

/-! ### What only the named commands write -/

theorem commandWrites_secret_cand (h : CommandWrites s i u) (hi : i ≠ .clear) :
    u.secret = s.secret ∧ u.secretLen = s.secretLen ∧ u.cand = s.cand ∧ u.candLen = s.candLen := by
  induction h with
  | clear => contradiction
  | hotpvfy _ ih | totpvfy _ ih => exact ih nofun
  | _ => simp

theorem commandWrites_key (h : CommandWrites s i u)
    (hi : i ∉ [.clear, .keynorm, .hotpgen, .hotpvfy, .totpgen, .totpvfy]) :
    u.keyblk = s.keyblk ∧ u.keyvalid = s.keyvalid := by
  cases h
  case clear | keynorm | hotpgen | hotpvfy | totpgen | totpvfy => simp at hi
  all_goals exact ⟨rfl, rfl⟩

theorem commandWrites_tctr (h : CommandWrites s i u) (hi : i ∉ [.clear, .tstep, .totpgen, .totpvfy]) :
    u.tctr = s.tctr := by
  induction h with
  | clear | tstep | totpgen | totpvfy => simp at hi
  | hotpvfy _ ih => exact ih (by decide)
  | _ => rfl

theorem commandWrites_digest (h : CommandWrites s i u)
    (hi : i ∉ [.clear, .hmacctr, .hotpgen, .hotpvfy, .totpgen, .totpvfy]) :
    u.digest = s.digest ∧ u.digestLen = s.digestLen := by
  cases h
  case clear | hmacctr | hotpgen | hotpvfy | totpgen | totpvfy => simp at hi
  all_goals exact ⟨rfl, rfl⟩

theorem commandWrites_extract (h : CommandWrites s i u)
    (hi : i ∉ [.clear, .extract, .trunc, .hotpgen, .hotpvfy, .totpgen, .totpvfy]) :
    u.offset = s.offset ∧ u.value = s.value := by
  cases h
  case clear | extract | trunc | hotpgen | hotpvfy | totpgen | totpvfy => simp at hi
  all_goals exact ⟨rfl, rfl⟩

theorem commandWrites_code (h : CommandWrites s i u)
    (hi : i ∉ [.clear, .reduce, .trunc, .hotpgen, .hotpvfy, .totpgen, .totpvfy]) : u.code = s.code := by
  cases h
  case clear | reduce | trunc | hotpgen | hotpvfy | totpgen | totpvfy => simp at hi
  all_goals rfl

theorem commandWrites_codestr (h : CommandWrites s i u)
    (hi : i ∉ [.clear, .render, .trunc, .hotpgen, .hotpvfy, .totpgen, .totpvfy]) :
    u.codestr = s.codestr ∧ u.strlen = s.strlen := by
  cases h
  case clear | render | trunc | hotpgen | hotpvfy | totpgen | totpvfy => simp at hi
  all_goals exact ⟨rfl, rfl⟩

theorem commandWrites_matched (h : CommandWrites s i u) (hi : i ∉ [.compare, .hotpvfy, .totpvfy]) :
    u.matched = s.matched := by
  cases h
  case compare | hotpvfy | totpvfy => simp at hi
  all_goals simp

/-- Settles O23: the frame of a command, and one law for each column of the table; a fault writes none of them. -/
theorem commandsWriteOnlyTheirOperandTable : Obligations.CommandsWriteOnlyTheirOperandTable := by
  intro i s t hexec
  refine ⟨?configuration, ?outside, ?complete, ?columns⟩
  case configuration =>
    rw [exec_frame hexec]
    exact ⟨rfl, rfl, rfl, rfl, rfl, rfl, rfl, rfl⟩
  case outside =>
    rw [exec_frame hexec]
    exact ⟨rfl, rfl, rfl⟩
  case complete =>
    rw [exec_frame hexec]
    exact ⟨rfl, rfl⟩
  case columns =>
    obtain ⟨f, rfl⟩ | ⟨u, hu, rfl⟩ := exec_cases hexec
    · exact ⟨fun _ => ⟨rfl, rfl, rfl, rfl⟩, fun _ => ⟨rfl, rfl⟩, fun _ => rfl, fun _ => ⟨rfl, rfl⟩,
        fun _ => ⟨rfl, rfl⟩, fun _ => rfl, fun _ => ⟨rfl, rfl⟩, fun _ => rfl⟩
    · exact ⟨commandWrites_secret_cand (u := u) hu, commandWrites_key (u := u) hu, commandWrites_tctr (u := u) hu,
        commandWrites_digest (u := u) hu, commandWrites_extract (u := u) hu, commandWrites_code (u := u) hu,
        commandWrites_codestr (u := u) hu, commandWrites_matched (u := u) hu⟩

/-! ### `KEYVALID` -/

/-- The commands that leave a normalized key in the key block (R45, R104). -/
theorem commandWrites_keyvalid (h : CommandWrites s i u) (hi : i ≠ .clear) :
    u.keyvalid = if i ∈ [Instr.keynorm, .hotpgen, .hotpvfy, .totpgen, .totpvfy] then true else s.keyvalid := by
  cases h
  case clear => contradiction
  case hotpvfy h | totpvfy h =>
    cases h
    rfl
  all_goals rfl

theorem exec_keyvalid (h : exec i s = .next t) (hi : i ≠ .clear) :
    t.keyvalid =
      if i ∈ [Instr.keynorm, .hotpgen, .hotpvfy, .totpgen, .totpvfy] ∧ t.err = 0 then true else s.keyvalid := by
  obtain ⟨f, rfl⟩ | ⟨u, hu, rfl⟩ := exec_cases h
  · exact (if_neg fun hset => errCode_ne_zero f hset.2).symm
  · rw [State.succeed_keyvalid, State.succeed_err, commandWrites_keyvalid hu hi]
    simp only [and_true]

/-- Settles O48: of the commands, `CLEAR` clears the flag, and it never faults; those that leave a key in the key block
set it. -/
theorem keyvalidIsClearedAndSetAsListed : Obligations.KeyvalidIsClearedAndSetAsListed := by
  refine ⟨fun s r v => writeReg_keyvalid s v, fun i s t hexec => ?command, fun s => s.resetEngine_keyvalid⟩
  case command =>
    obtain rfl | hi := eq_or_ne i .clear
    case inl => rw [if_pos rfl, eq_succeed_of_exec hexec .clear, State.succeed_keyvalid, State.zeroize_keyvalid]
    case inr => rw [if_neg hi, exec_keyvalid hexec hi]

/-! ### `CLEAR` -/

/-- Settles O26: `CLEAR` overwrites every field in which the two states may differ. -/
theorem clearLeavesNoTraceOfTheSecret : Obligations.ClearLeavesNoTraceOfTheSecret := by
  intro s t hdigits halg hperiod hepoch hctr htime hie hlastcmd hmatched hqueue hschedule hresponses
  have cleared : s.zeroize.succeed = t.zeroize.succeed := by
    ext1
    case digits => exact hdigits
    case alg => exact halg
    case period => exact hperiod
    case epoch => exact hepoch
    case ctr => exact hctr
    case time => exact htime
    case ie => exact hie
    case lastcmd => exact hlastcmd
    case matched => exact hmatched
    case hostQueue => exact hqueue
    case schedule => exact hschedule
    case responses => exact hresponses
    all_goals rfl
  rw [exec_of_writes .clear, exec_of_writes .clear, cleared]

end Sys2Proof.Proofs
end

section
/-! The turns of the host and of the engine as steps (spec/10_state.md rules R50 to R53; spec/20_memory.md rule R74;
spec/70_reset_and_hazards.md rule R301). -/

namespace Sys2Proof.Proofs

open Sys2Proof.Machine

variable {s t : State}

/-! ### The engine's turn -/

/-- The engine's turn is a step of its own in every state (R53, R269). -/
theorem engineTurn_answers (s : State) : ∃ t, s.engineTurn = .next t := by
  cases hbusy : s.busy
  case false => exact ⟨s, engineTurn_idle hbusy⟩
  case true =>
    obtain ⟨t, hturn, -⟩ := engineTurn_done_ie hbusy
    exact ⟨t, hturn⟩

/-- A running command completes at the engine's turn, and the host's pending operations, the turns to come and what the
host has received are as they were (R53, R104). -/
theorem engineTurn_frame (hbusy : s.busy = true) (h : s.engineTurn = .next t) :
    t.busy = false ∧ t.ie = s.ie ∧ t.lastcmd = s.lastcmd ∧ t.hostQueue = s.hostQueue ∧ t.schedule = s.schedule ∧
      t.responses = s.responses := by
  obtain ⟨hidle, -⟩ | ⟨-, ⟨f, rfl⟩ | ⟨i, u, -, hu, rfl⟩⟩ := engineTurn_cases h
  · rw [hbusy] at hidle
    cases hidle
  · exact ⟨rfl, rfl, rfl, rfl, rfl, rfl⟩
  · rw [commandWrites_frame hu]
    exact ⟨rfl, rfl, rfl, rfl, rfl, rfl⟩

/-! ### What is held -/

theorem holds_iff {r : Reg} :
    s.holds r = true ↔ s.busy = true ∧ r ≠ .id ∧ r ≠ .status ∧ r ≠ .ctrl ∧ r ≠ .lastcmd := by
  rw [State.holds, Bool.and_eq_true, Bool.not_eq_true', ← Bool.not_eq_true, openWhileBusy_eq_true_iff]
  simp only [not_or, ne_eq]

theorem hostRead_eq_none_iff {off : Nat} :
    s.hostRead off = none ↔ ∃ r, Reg.offsetOf r = off ∧ s.holds r = true := by
  cases hreg : Reg.atOffset off with
  | none => simp [hostRead_of_unmapped hreg, ← atOffset_eq_some_iff, hreg]
  | some r => simp [hostRead_of_mapped hreg, ← atOffset_eq_some_iff, hreg]

theorem hostWrite_eq_none_iff {off : Nat} {v : Word} :
    s.hostWrite off v = none ↔ ∃ r, Reg.offsetOf r = off ∧ s.holds r = true := by
  cases hreg : Reg.atOffset off with
  | none => simp [hostWrite_of_unmapped v hreg, ← atOffset_eq_some_iff, hreg]
  | some r => simp [hostWrite_of_mapped v hreg, ← atOffset_eq_some_iff, hreg]

/-- A transaction is held on the register it is for (R74). -/
theorem transact_eq_none_iff {t : Transaction} :
    s.transact t = none ↔
      ∃ r, s.holds r = true ∧ (t = .read (Reg.offsetOf r) ∨ ∃ v, t = .write (Reg.offsetOf r) v) := by
  cases t with
  | read off =>
    rw [State.transact, Option.map_eq_none_iff, hostRead_eq_none_iff]
    constructor
    · rintro ⟨r, rfl, hr⟩
      exact ⟨r, hr, .inl rfl⟩
    · rintro ⟨r, hr, hread | ⟨v, hwrite⟩⟩
      · exact ⟨r, (Transaction.read.inj hread).symm, hr⟩
      · cases hwrite
  | write off v =>
    rw [State.transact, Option.map_eq_none_iff, hostWrite_eq_none_iff]
    constructor
    · rintro ⟨r, rfl, hr⟩
      exact ⟨r, hr, .inr ⟨v, rfl⟩⟩
    · rintro ⟨r, hr, hread | ⟨v', hwrite⟩⟩
      · cases hread
      · exact ⟨r, (Transaction.write.inj hwrite).1.symm, hr⟩
  | readOther | writeOther => simp [State.transact]

/-- What a transaction leaves alone: the host's pending operations, the turns to come and what it has received. -/
theorem transact_frame {t : Transaction} {resp : Response} {s' : State} (h : s.transact t = some (resp, s')) :
    s'.hostQueue = s.hostQueue ∧ s'.schedule = s.schedule ∧ s'.responses = s.responses := by
  obtain ⟨hnone, -⟩ | ⟨resp', hsame⟩ | ⟨off, r, v, -, -, -, hwrite⟩ := transact_cases s t
  · rw [hnone] at h
    cases h
  · cases hsame.symm.trans h
    exact ⟨rfl, rfl, rfl⟩
  · cases hwrite.symm.trans h
    exact ⟨s.writeReg_hostQueue r v, s.writeReg_schedule r v, s.writeReg_responses r v⟩

end Sys2Proof.Proofs
end

section
/-! One step at each agent's turn, and the transactions that wait for a command to end (spec/10_state.md rules R50 to
R53, R278; spec/20_memory.md rule R74; spec/70_reset_and_hazards.md rules R301, R310). -/

namespace Sys2Proof.Proofs

open Sys2Proof.Machine

variable {s : State} {t : Transaction} {q : List HostOp} {sch : List Agent}

/-! ### The host's turn -/

/-- A transaction neither reads nor writes the turns to come, so it can be performed with the turn still laid down. -/
theorem step_host_access {resp : Response} {s' : State} (hsched : s.schedule = .host :: sch)
    (hqueue : s.hostQueue = .access t :: q) (ht : s.transact t = some (resp, s')) :
    step s = .next { s' with schedule := sch, hostQueue := q, responses := resp :: s.responses } := by
  obtain ⟨-, -, hresponses⟩ := transact_frame ht
  have performed : (s.withSchedule sch).transact t = some (resp, s'.withSchedule sch) := by
    rw [transact_withSchedule, ht, Option.map_some]
  rw [step_host hsched, hostTurn_access (s := s.withSchedule sch) hqueue performed, ← hresponses]
  rfl

theorem step_host_held (hsched : s.schedule = .host :: sch) (hqueue : s.hostQueue = .access t :: q)
    (ht : s.transact t = none) : step s = .next { s with schedule := sch } := by
  have held : (s.withSchedule sch).transact t = none := by rw [transact_withSchedule, ht, Option.map_none]
  rw [step_host hsched, hostTurn_held (s := s.withSchedule sch) hqueue held]
  rfl

/-- Bit 0 of `STATUS` is `BUSY` (R23). -/
theorem statusWord_bit_zero (s : State) : s.statusWord.getLsbD 0 = s.busy := by
  have value := statusWord_toNat s
  rw [BitVec.getLsbD, Nat.testBit_zero]
  cases hbusy : s.busy <;> simp only [hbusy, Bool.toNat_false, Bool.toNat_true] at value <;> simp <;> omega

theorem hostTurn_wait (hqueue : s.hostQueue = .wait :: q) :
    s.hostTurn = s.received (if s.busy then .wait :: q else q) (.read .okay (s.readReg .status)) := by
  simp only [State.hostTurn, hqueue, statusWord_bit_zero]
  rfl

theorem hostTurn_nil (hqueue : s.hostQueue = []) : s.hostTurn = s := by simp only [State.hostTurn, hqueue]

/-- With no turn laid down an idle engine's step is that of a host's turn laid down alone. -/
theorem step_free_idle_eq_host (hsched : s.schedule = []) (hidle : s.busy = false) :
    step s = step { s with schedule := [.host] } := by
  have same : ({ s with schedule := [.host] } : State).withSchedule [] = s := by
    rw [State.withSchedule, ← hsched]
  rw [step_host (s := { s with schedule := [.host] }) rfl, same, step_free_idle hsched hidle]

/-- Settles O15: the steps at each turn. -/
theorem stepIsTheTurnOfTheNextAgent : Obligations.StepIsTheTurnOfTheNextAgent := by
  intro s sch
  refine ⟨fun t q resp s' => step_host_access, fun t q => step_host_held, fun q hsched hqueue => ?wait,
    fun hsched hqueue => ?nothingPending, step_engine, step_reset, step_free_busy,
    fun hsched hidle => ⟨step_free_idle hsched hidle, step_free_idle_eq_host hsched hidle⟩⟩
  case wait =>
    rw [step_host hsched, hostTurn_wait (s := s.withSchedule sch) hqueue]
    rfl
  case nothingPending =>
    rw [step_host hsched, hostTurn_nil (s := s.withSchedule sch) hqueue]
    rfl

/-! ### The engine's turn -/

/-- Settles O16: at the engine's turn and when no turn is laid down the step is the engine's turn. -/
theorem stepRunsTheLatchedCommand : Obligations.StepRunsTheLatchedCommand := by
  intro s i hbusy hword _
  refine ⟨fun sch hsched => ?atTurn, fun hsched => (step_free_busy hsched hbusy).trans (engineTurn_command hbusy hword)⟩
  case atTurn => exact (step_engine hsched).trans (engineTurn_command (s := s.withSchedule sch) hbusy hword)

/-- Settles O17: the placed state is the Accept of the command's word with the engine's turn laid down first. -/
theorem placedWordRunsNext : Obligations.PlacedWordRunsNext := by
  intro s i
  have word : BitVec.ofNat 32 ((encode i).toNat % 2 ^ 32) = encode i := by
    rw [Nat.mod_eq_of_lt (encode i).isLt, BitVec.ofNat_toNat, BitVec.setWidth_eq]
  calc step (s.withFetchWord 32 (encode i).toNat)
    _ = step (s.present (encode i)) := by rw [State.withFetchWord, word]
    _ = (s.accept (encode i)).engineTurn := step_engine rfl
    _ = exec i (s.accept (encode i)) := engineTurn_command rfl (decode_encode i)

/-- Settles O19: the host's turn and reset are functions of the state, and the engine's turn answers in every state. -/
theorem everyStepAnswersANextState : Obligations.EveryStepAnswersANextState := by
  refine ⟨fun s => ?step, exec_answers⟩
  case step =>
    cases hsched : s.schedule with
    | nil =>
      cases hbusy : s.busy
      case false => exact ⟨_, step_free_idle hsched hbusy⟩
      case true =>
        rw [step_free_busy hsched hbusy]
        exact engineTurn_answers s
    | cons agent sch =>
      cases agent
      case host => exact ⟨_, step_host hsched⟩
      case engine =>
        rw [step_engine hsched]
        exact engineTurn_answers _
      case reset => exact ⟨_, step_reset hsched⟩

/-- Settles O20: Complete is enabled with `BUSY = 1` only, and the host has nothing to do. -/
theorem idleEngineDoesNothing : Obligations.IdleEngineDoesNothing := by
  intro s hidle
  refine ⟨fun sch hsched => ?engine, fun hsched hqueue => ?nothingPending⟩
  case engine => exact (step_engine hsched).trans (engineTurn_idle (s := s.withSchedule sch) hidle)
  case nothingPending => rw [step_free_idle hsched hidle, hostTurn_nil hqueue]

/-! ### Held transactions -/

/-- Once the engine is idle, the host's next turn performs its transaction (R74). -/
theorem step_host_idle (hidle : s.busy = false) (hsched : s.schedule = .host :: sch)
    (hqueue : s.hostQueue = .access t :: q) :
    ∃ resp s', s.transact t = some (resp, s') ∧
      step s = .next { s' with schedule := sch, hostQueue := q, responses := resp :: s.responses } := by
  obtain ⟨⟨resp, s'⟩, ht⟩ := transact_idle s t hidle
  exact ⟨resp, s', ht, step_host_access hsched hqueue ht⟩

/-- Only a running command holds a transaction (R74). -/
theorem busy_of_held (ht : s.transact t = none) : s.busy = true := by
  obtain ⟨r, hr, -⟩ := transact_eq_none_iff.1 ht
  exact (holds_iff.1 hr).1

/-- Settles O13: a transaction is held as its register is (`transact_eq_none_iff`), and the engine's turn ends the
command and leaves the pending operations as they are. -/
theorem heldTransactionRunsAfterComplete : Obligations.HeldTransactionRunsAfterComplete := by
  refine ⟨fun s t => ?held, fun s t q sch ht hqueue hsched => ⟨step_host_held hsched hqueue ht, ?released⟩⟩
  case held =>
    rw [transact_eq_none_iff]
    constructor
    · rintro ⟨r, hr, ht⟩
      obtain ⟨hbusy, hid, hstatus, hctrl, hlastcmd⟩ := holds_iff.1 hr
      exact ⟨hbusy, r, hid, hstatus, hctrl, hlastcmd, ht⟩
    · rintro ⟨hbusy, r, hid, hstatus, hctrl, hlastcmd, ht⟩
      exact ⟨r, holds_iff.2 ⟨hbusy, hid, hstatus, hctrl, hlastcmd⟩, ht⟩
  case released =>
    have hbusy : (s.withSchedule (.host :: sch)).busy = true := busy_of_held (s := s) ht
    obtain ⟨u, hturn⟩ := engineTurn_answers (s.withSchedule (.host :: sch))
    obtain ⟨uidle, -, -, uqueue, usched, -⟩ := engineTurn_frame hbusy hturn
    refine ⟨u, ?engine, uidle, uqueue, usched, step_host_idle uidle usched (uqueue.trans hqueue)⟩
    case engine => exact (step_engine (s := { s with schedule := .engine :: .host :: sch }) rfl).trans hturn

/-- Settles O51: the engine is idle in the reset state, so the held transaction is performed there; a write to `CMD` is
the Accept. -/
theorem resetAbandonsTheCommandAndReleasesTheHold : Obligations.ResetAbandonsTheCommandAndReleasesTheHold := by
  intro s t q sch ht hqueue hsched
  refine ⟨(s.withSchedule (.host :: sch)).resetEngine, step_host_held hsched hqueue ht,
    step_reset (s := { s with schedule := .reset :: .host :: sch }) rfl, rfl, step_host_idle rfl rfl hqueue, ?accept⟩
  case accept =>
    rintro w rfl
    have idle : (s.withSchedule (.host :: sch)).resetEngine.holds .cmd = false := holds_idle .cmd rfl
    have accepted := transact_write (r := .cmd) w idle
    exact step_host_access (s := (s.withSchedule (.host :: sch)).resetEngine) rfl hqueue accepted

/-! ### Every pending operation is performed -/

/-- The turns it takes at most, with none laid down: two for a pending operation that starts a command, one for a
command that runs. -/
def turnsLeft (s : State) : Nat := 2 * s.hostQueue.length + s.busy.toNat

theorem finished_of_turnsLeft (h : turnsLeft s = 0) : s.finished = true := by
  have hqueue : s.hostQueue = [] := List.length_eq_zero_iff.1 (by rw [turnsLeft] at h; omega)
  have hidle : s.busy = false := by
    rw [turnsLeft, hqueue] at h
    cases hbusy : s.busy <;> simp_all
  rw [State.finished, hqueue, hidle]
  rfl

theorem hostTurn_turnsLeft (hidle : s.busy = false) :
    s.hostTurn.schedule = s.schedule ∧ turnsLeft s.hostTurn ≤ turnsLeft s - 1 := by
  cases hqueue : s.hostQueue with
  | nil =>
    rw [hostTurn_nil hqueue]
    refine ⟨rfl, ?_⟩
    rw [turnsLeft, hqueue, hidle]
    rfl
  | cons op rest =>
    cases op with
    | wait =>
      rw [hostTurn_wait hqueue, hidle, if_neg Bool.false_ne_true]
      refine ⟨rfl, ?_⟩
      simp only [turnsLeft, State.received_hostQueue, State.received_busy, hqueue, List.length_cons]
      omega
    | access t =>
      obtain ⟨⟨resp, s'⟩, ht⟩ := transact_idle s t hidle
      obtain ⟨-, hsched, -⟩ := transact_frame ht
      rw [hostTurn_access hqueue ht]
      refine ⟨hsched, ?_⟩
      have := s'.busy.toNat_le
      simp only [turnsLeft, State.received_hostQueue, State.received_busy, hqueue, List.length_cons]
      omega

/-- With no turn laid down every step takes one turn of those left. -/
theorem step_free_turnsLeft (hsched : s.schedule = []) :
    ∃ t, step s = .next t ∧ t.schedule = [] ∧ turnsLeft t ≤ turnsLeft s - 1 := by
  cases hbusy : s.busy
  case false =>
    obtain ⟨tsched, hless⟩ := hostTurn_turnsLeft hbusy
    exact ⟨_, step_free_idle hsched hbusy, tsched.trans hsched, hless⟩
  case true =>
    obtain ⟨t, hturn⟩ := engineTurn_answers s
    obtain ⟨tidle, -, -, tqueue, tsched, -⟩ := engineTurn_frame hbusy hturn
    refine ⟨t, (step_free_busy hsched hbusy).trans hturn, tsched.trans hsched, ?_⟩
    rw [turnsLeft, turnsLeft, tqueue, tidle, hbusy]
    rfl

theorem run_free_finishes (n : Nat) : ∀ s : State, s.schedule = [] → turnsLeft s ≤ n →
    ∃ t, Host.Core.run Sys2Proof.core n s = .next t ∧ t.finished = true := by
  induction n with
  | zero =>
    intro s _ hn
    exact ⟨s, run_zero s, finished_of_turnsLeft (Nat.le_zero.1 hn)⟩
  | succ n ih =>
    intro s hsched hn
    obtain ⟨t, hstep, tsched, hless⟩ := step_free_turnsLeft hsched
    rw [run_succ n hstep]
    exact ih t tsched (by omega)

/-- Settles O57: at most `turnsLeft` steps are needed, and a finished engine stays so. -/
theorem pendingOperationsFinish : Obligations.PendingOperationsFinish := by
  intro s n hsched hn
  have := s.busy.toNat_le
  exact run_free_finishes n s hsched (by rw [turnsLeft]; omega)

end Sys2Proof.Proofs
end

section
/-! Hash padding: the least number of zeros that fills the last block (spec/40_hash_functions.md rule R131). -/

namespace Sys2Proof.Proofs

open Sys2Proof.Machine

theorem padMessage_length (m : Bytes) (blk lf : Nat) :
    (padMessage m blk lf).length = m.length + 1 + lf + padZeros m.length blk lf := by
  simp only [padMessage, List.length_append, List.length_singleton, zeros_length, beBytes_length]
  omega

/-- The zeros make up what the last block lacks; a block that lacks nothing gets none. -/
theorem padZeros_eq (n lf : Nat) {blk : Nat} (hblk : 0 < blk) :
    padZeros n blk lf = if (n + 1 + lf) % blk = 0 then 0 else blk - (n + 1 + lf) % blk := by
  rw [padZeros]
  split
  case isTrue hfull => rw [hfull, Nat.sub_zero, Nat.mod_self]
  case isFalse hpartial => exact Nat.mod_eq_of_lt (by omega)

/-- Settles O29: with a remainder of `r` bytes in the last block, `blk - r` zeros fill it and fewer do not. -/
theorem paddingIsTheLeastThatFillsBlocks : Obligations.PaddingIsTheLeastThatFillsBlocks := by
  intro m blk lf hblk
  have remainder_lt := Nat.mod_lt (m.length + 1 + lf) hblk
  refine ⟨?fills, fun z hz => ?least⟩
  case fills =>
    rw [padMessage_length, Nat.add_mod, padZeros_eq _ _ hblk]
    split
    case isTrue hfull => rw [hfull, Nat.zero_mod, Nat.add_zero, Nat.zero_mod]
    case isFalse hpartial =>
      rw [Nat.mod_eq_of_lt (by omega : blk - (m.length + 1 + lf) % blk < blk), Nat.add_sub_cancel' remainder_lt.le,
        Nat.mod_self]
  case least =>
    rw [padZeros_eq _ _ hblk]
    split
    case isTrue => exact Nat.zero_le z
    case isFalse hpartial =>
      by_contra hfewer
      rw [show m.length + 1 + z + lf = m.length + 1 + lf + z by omega, Nat.add_mod,
        Nat.mod_eq_of_lt (by omega : z < blk), Nat.mod_eq_of_lt (by omega)] at hz
      omega

end Sys2Proof.Proofs
end

section
/-! The numeral a code string denotes (spec/30_encoding.md rule R113; spec/41_truncation.md rules R164, R169). -/

namespace Sys2Proof.Proofs

open Sys2Proof.Machine

variable {i : Instr} {s t u : State}

/-- The numeral of a string of ASCII digits, read most significant digit first. -/
def numeral (cs : Bytes) : Nat := cs.foldl (fun n c => 10 * n + (c.toNat - 0x30)) 0

theorem numeral_append_digit (cs : Bytes) (c : Byte) : numeral (cs ++ [c]) = 10 * numeral cs + (c.toNat - 0x30) := by
  rw [numeral, List.foldl_append, List.foldl_cons, List.foldl_nil, numeral]

/-- The last digit of a code, behind the digits of the rest of it. -/
theorem dec_succ (code n : Nat) : dec code (n + 1) = dec (code / 10) n ++ [BitVec.ofNat 8 (0x30 + code % 10)] := by
  have front : ∀ i ∈ List.range n, BitVec.ofNat 8 (0x30 + code / 10 ^ (n + 1 - 1 - i) % 10) =
      BitVec.ofNat 8 (0x30 + code / 10 / 10 ^ (n - 1 - i) % 10) := by
    intro i hi
    have weight : n + 1 - 1 - i = n - 1 - i + 1 := by
      have := List.mem_range.1 hi
      omega
    rw [weight, Nat.pow_succ', Nat.div_div_eq_div_mul]
  rw [dec, List.range_succ, List.map_append, List.map_congr_left front, List.map_singleton, Nat.add_sub_cancel,
    Nat.sub_self, Nat.pow_zero, Nat.div_one, dec]

theorem numeral_dec (n : Nat) : ∀ code, numeral (dec code n) = code % 10 ^ n := by
  induction n with
  | zero =>
    intro code
    rw [Nat.pow_zero, Nat.mod_one]
    rfl
  | succ n ih =>
    intro code
    have digit : (BitVec.ofNat 8 (0x30 + code % 10)).toNat = 0x30 + code % 10 := by
      rw [BitVec.toNat_ofNat]
      omega
    rw [dec_succ, numeral_append_digit, ih, digit, Nat.add_sub_cancel_left, Nat.pow_succ', Nat.mod_mul, Nat.add_comm]

/-- A rendered state: the code string is the decimal string of `CODE`, in as many digits as `DIGITS` says, with zeros
behind it (R167). -/
structure Rendered (digits : BitVec 8) (u : State) : Prop where
  digits_pos : 1 ≤ digits.toNat
  digits_le : digits.toNat ≤ 10
  code_lt : u.code.toNat < 10 ^ digits.toNat
  codestr : u.codestr = Memory.ofBytes (dec u.code.toNat digits.toNat ++ zeros (12 - digits.toNat))
  strlen : u.strlen = digits

/-- The comparison with the candidate writes `MATCH` only (R170). -/
theorem Rendered.setMatch {digits : BitVec 8} (h : Rendered digits u) : Rendered digits u.setMatch :=
  ⟨h.digits_pos, h.digits_le, h.code_lt, h.codestr, h.strlen⟩

theorem Rendered.succeed {digits : BitVec 8} (h : Rendered digits u) : Rendered digits u.succeed :=
  ⟨h.digits_pos, h.digits_le, h.code_lt, h.codestr, h.strlen⟩

/-- `STRLEN` has the width of `DIGITS` (R26, R39). -/
theorem setString_strlen_digits (s : State) (code : Nat) : (s.setString code s.digits.toNat).strlen = s.digits := by
  rw [State.setString_strlen, BitVec.ofNat_toNat, BitVec.setWidth_eq]

theorem rendered_setTrunc (s : State) (d : Bytes) (h1 : 1 ≤ s.digits.toNat) (h10 : s.digits.toNat ≤ 10) :
    Rendered s.digits (s.setTrunc d s.digits.toNat) := by
  have code_toNat := setTrunc_code_toNat s d s.digits.toNat
  refine ⟨h1, h10, ?code, ?codestr, setString_strlen_digits ((s.setExtract d).setCode _ _) _⟩
  case code =>
    rw [code_toNat]
    exact reduceCode_lt _ _
  case codestr =>
    rw [code_toNat]
    rfl

theorem rendered_otpStages (s : State) (a : HashAlg) (secret : Bytes) (c : Nat) (h1 : 1 ≤ s.digits.toNat)
    (h10 : s.digits.toNat ≤ 10) : Rendered s.digits (s.otpStages a secret c s.digits.toNat) :=
  rendered_setTrunc ((s.setKeyBlock a _).setDigest a _) _ h1 h10

/-- The commands that write a code string. -/
def renderingCommands : List Instr := [.render, .trunc, .hotpgen, .hotpvfy, .totpgen, .totpvfy]

/-- Each of them writes the string of `CODE` (R167, R168, R210, R211, R232, R233). -/
theorem rendered_of_commandWrites (h : CommandWrites s i u) (hi : i ∈ renderingCommands) : Rendered s.digits u := by
  induction h with
  | render h1 h10 hcode => exact ⟨h1, h10, hcode, rfl, setString_strlen_digits s _⟩
  | trunc _ h1 h10 => exact rendered_setTrunc s _ h1 h10
  | hotpgen _ _ _ h1 h10 => exact rendered_otpStages s _ _ _ h1 h10
  | hotpvfy _ ih | totpvfy _ ih => exact (ih (by decide)).setMatch
  | totpgen _ _ _ _ _ h1 h10 => exact rendered_otpStages (s.setTctr _) _ _ _ h1 h10
  | _ => simp [renderingCommands] at hi

/-- The string below `STRLEN` denotes `CODE`, which is short enough for it (R169). -/
theorem Rendered.numeral_eq {digits : BitVec 8} (h : Rendered digits u) :
    numeral (u.codestr.bytes u.strlen.toNat) = u.code.toNat := by
  have string : u.codestr.bytes u.strlen.toNat = dec u.code.toNat digits.toNat := by
    rw [h.codestr, h.strlen]
    simpa only [dec_length] using
      Memory.bytes_ofBytes_append (dec u.code.toNat digits.toNat) (zeros (12 - digits.toNat))
  rw [string, numeral_dec, Nat.mod_eq_of_lt h.code_lt]

/-- Settles O33: without a fault the command made its writes, and these leave a rendered state. -/
theorem codeStringDenotesCode : Obligations.CodeStringDenotesCode := by
  intro i s t hi hexec herr
  obtain ⟨u, hu, rfl⟩ := commandWrites_of_exec hexec herr
  have rendered := (rendered_of_commandWrites hu hi).succeed
  exact ⟨rendered.numeral_eq, rendered.strlen⟩

end Sys2Proof.Proofs
end

section
/-! The composite commands as their stages, and what their results depend on (spec/41_truncation.md rule R169;
spec/43_hotp.md rule R212; spec/44_totp.md rule R234). -/

namespace Sys2Proof.Proofs

open Sys2Proof.Machine

variable {s t : State} {a : HashAlg}

/-! ### Completions without a fault -/

/-- `TRUNC` without a fault: its operands are legal, and the end state is that of its writes (R168). -/
theorem trunc_of_exec (h : exec .trunc s = .next t) (herr : t.err = 0) :
    s.DigestOk ∧ 1 ≤ s.digits.toNat ∧ s.digits.toNat ≤ 10 ∧
      t = (s.setTrunc s.digestBytes s.digits.toNat).succeed := by
  obtain ⟨u, hu, rfl⟩ := commandWrites_of_exec h herr
  cases hu with
  | trunc hd h1 h10 => exact ⟨hd, h1, h10, rfl⟩

/-- `HOTPGEN` without a fault: its operands are legal, and the end state is that of its writes (R210). -/
theorem hotpgen_of_exec (h : exec .hotpgen s = .next t) (herr : t.err = 0) :
    ∃ a, HashAlg.ofField s.alg = some a ∧ s.secretLen.toNat ≤ 256 ∧ s.ctr.toNat < 2 ^ 63 ∧ 1 ≤ s.digits.toNat ∧
      s.digits.toNat ≤ 10 ∧ t = (s.otpStages a s.secretBytes s.ctr.toNat s.digits.toNat).succeed := by
  obtain ⟨u, hu, rfl⟩ := commandWrites_of_exec h herr
  cases hu with
  | hotpgen ha hlen hctr h1 h10 => exact ⟨_, ha, hlen, hctr, h1, h10, rfl⟩

/-! ### The truncation and its stages -/

theorem setExtract_value_toNat (s : State) (d : Bytes) : (s.setExtract d).value.toNat = dtValue d :=
  (BitVec.toNat_ofNat _ _).trans (Nat.mod_eq_of_lt (dtValue_lt d))

/-- The extraction's value and the reduction's code are what the next stage reads them as, so the stages' writes one
after the other are those of the whole truncation (R168). -/
theorem stages_eq_setTrunc (s : State) (d : Bytes) (n : Nat) :
    (((s.setExtract d).succeed.setCode (s.setExtract d).succeed.value.toNat n).succeed.setString
        ((s.setExtract d).succeed.setCode (s.setExtract d).succeed.value.toNat n).succeed.code.toNat n).succeed =
      (s.setTrunc d n).succeed := by
  have value_eq : (s.setExtract d).succeed.value.toNat = dtValue d := setExtract_value_toNat s d
  have code_eq : ((s.setExtract d).succeed.setCode (dtValue d) n).succeed.code.toNat = reduceCode (dtValue d) n :=
    setCode_code_toNat (s.setExtract d).succeed n ((dtValue_lt d).trans (by decide))
  rw [value_eq, code_eq]
  rfl

/-- Settles O35: the stages check what the truncation checks, and `stages_eq_setTrunc` says what they leave. -/
theorem truncIsExtractReduceRender : Obligations.TruncIsExtractReduceRender := by
  intro s a b c hextract ha hreduce hb hrender hc
  obtain ⟨_, extracted, rfl⟩ := commandWrites_of_exec hextract ha
  cases extracted with | extract hd =>
  obtain ⟨_, reduced, rfl⟩ := commandWrites_of_exec hreduce hb
  cases reduced with | reduce h1 h10 =>
  obtain ⟨_, rendered, rfl⟩ := commandWrites_of_exec hrender hc
  cases rendered
  calc exec .trunc s
    _ = .next (s.setTrunc s.digestBytes s.digits.toNat).succeed := exec_of_writes (.trunc hd h1 h10)
    _ = _ := congrArg Host.Outcome.next (stages_eq_setTrunc s s.digestBytes s.digits.toNat).symm

/-- Settles O36: the operands of the truncation are the digest string and `DIGITS`. -/
theorem truncDependsOnDigestAndDigitsOnly : Obligations.TruncDependsOnDigestAndDigitsOnly := by
  intro s s' t t' hlen hdigest hdigits hexec hexec' herr
  obtain ⟨hd, h1, h10, rfl⟩ := trunc_of_exec hexec herr
  have string_eq : s.digestBytes = s'.digestBytes := by
    rw [State.digestBytes, State.digestBytes, ← hlen]
    exact Memory.bytes_congr hdigest
  have hd' : s'.DigestOk := by
    rw [State.DigestOk, ← hlen, ← string_eq]
    exact hd
  rw [hdigits] at h1 h10
  rw [eq_succeed_of_exec hexec' (.trunc hd' h1 h10), string_eq, hdigits]
  exact ⟨rfl, rfl, rfl, rfl, rfl, rfl⟩

/-! ### `HOTPGEN` and its stages -/

/-- The key block is read back as the normalized key (R192). -/
theorem setKeyBlock_bytes (s : State) {kb : Bytes} (hkb : kb.length = a.blockLen) :
    (s.setKeyBlock a kb).keyblk.bytes a.blockLen = kb := by
  rw [State.setKeyBlock_keyblk, ← hkb, Memory.bytes_ofBytes_append]

/-- The digest just written is the one that is truncated (R193). -/
theorem setDigest_digestBytes (s : State) {d : Bytes} (hd : d.length = a.digestLen) :
    (s.setDigest a d).digestBytes = d := by
  have len_eq : (BitVec.ofNat 8 a.digestLen).toNat = a.digestLen := by cases a <;> rfl
  rw [State.digestBytes, State.setDigest_digestLen, len_eq, setDigest_bytes s hd]

/-- A digest just written is in the domain of the truncation, whatever the key and the message (R161, R209). -/
theorem setDigest_digestOk (s : State) (key m : Bytes) : (s.setDigest a (hmac a key m)).DigestOk := by
  have defined := dtDefined_hmac a key m
  have string := setDigest_digestBytes s (hmac_length a key m)
  have len_eq : (s.setDigest a (hmac a key m)).digestLen.toNat = a.digestLen := by
    rw [← digestBytes_length, string, hmac_length]
  have := a.digestLen_le
  simp only [dtDefined, hmac_length, Bool.and_eq_true, decide_eq_true_eq] at defined
  rw [State.DigestOk, string, len_eq]
  omega

/-- The state after `KEYNORM`. -/
def afterKeynorm (s : State) (a : HashAlg) : State := (s.setKeyBlock a (normKey a s.secretBytes)).succeed

/-- The state after `KEYNORM` and `HMACCTR`. -/
def afterHmacctr (s : State) (a : HashAlg) : State :=
  ((afterKeynorm s a).setDigest a (hmac a (normKey a s.secretBytes) (be64 s.ctr.toNat))).succeed

theorem exec_keynorm_stage (ha : HashAlg.ofField s.alg = some a) (hlen : s.secretLen.toNat ≤ 256) :
    exec .keynorm s = .next (afterKeynorm s a) := exec_of_writes (.keynorm ha hlen)

/-- `HMACCTR` after `KEYNORM` hashes with the key that `KEYNORM` left. -/
theorem exec_hmacctr_stage (ha : HashAlg.ofField s.alg = some a) (hctr : s.ctr.toNat < 2 ^ 63) :
    exec .hmacctr (afterKeynorm s a) = .next (afterHmacctr s a) := by
  have key : (afterKeynorm s a).keyblk.bytes a.blockLen = normKey a s.secretBytes :=
    setKeyBlock_bytes s (normKey_length a s.secretBytes)
  have writes := CommandWrites.hmacctr (s := afterKeynorm s a) ha rfl hctr
  rw [key] at writes
  exact exec_of_writes writes

/-- `TRUNC` after `HMACCTR` truncates the digest that `HMACCTR` left, and so the three end where `HOTPGEN` does. -/
theorem exec_trunc_stage (h1 : 1 ≤ s.digits.toNat) (h10 : s.digits.toNat ≤ 10) :
    exec .trunc (afterHmacctr s a) = .next (s.otpStages a s.secretBytes s.ctr.toNat s.digits.toNat).succeed := by
  have string : (afterHmacctr s a).digestBytes = hmac a (normKey a s.secretBytes) (be64 s.ctr.toNat) :=
    setDigest_digestBytes (afterKeynorm s a) (hmac_length a _ _)
  have inDomain : (afterHmacctr s a).DigestOk := setDigest_digestOk (afterKeynorm s a) _ _
  have writes := CommandWrites.trunc (s := afterHmacctr s a) inDomain h1 h10
  rw [string] at writes
  exact (exec_of_writes writes).trans rfl

/-- Settles O39: the three commands check what `HOTPGEN` checks, since `KEYNORM` leaves a valid key and `HMACCTR` a
digest in the domain. -/
theorem hotpgenIsKeynormHmacctrTrunc : Obligations.HotpgenIsKeynormHmacctrTrunc := by
  intro s t
  constructor
  case mp =>
    rintro ⟨hexec, herr⟩
    obtain ⟨a, ha, hlen, hctr, h1, h10, rfl⟩ := hotpgen_of_exec hexec herr
    exact ⟨_, _, exec_keynorm_stage ha hlen, rfl, exec_hmacctr_stage ha hctr, rfl, exec_trunc_stage h1 h10, rfl⟩
  case mpr =>
    rintro ⟨a, b, hkeynorm, ha, hhmacctr, hb, htrunc, ht⟩
    obtain ⟨_, normalized, -⟩ := commandWrites_of_exec hkeynorm ha
    cases normalized with | keynorm halg hlen =>
    cases hkeynorm.symm.trans (exec_keynorm_stage halg hlen)
    obtain ⟨_, hashed, -⟩ := commandWrites_of_exec hhmacctr hb
    cases hashed with | hmacctr _ _ hctr =>
    cases hhmacctr.symm.trans (exec_hmacctr_stage halg hctr)
    obtain ⟨-, h1, h10, -⟩ := trunc_of_exec htrunc ht
    cases htrunc.symm.trans (exec_trunc_stage h1 h10)
    exact ⟨exec_of_writes (.hotpgen halg hlen hctr h1 h10), rfl⟩

/-- The code string that the generation leaves is the one-time password of its operands (R209). -/
theorem otpStages_codeString (s : State) (a : HashAlg) (secret : Bytes) (c : Nat) :
    (s.otpStages a secret c s.digits.toNat).codeString = hotp a secret c s.digits.toNat := by
  have strlen_eq : (s.otpStages a secret c s.digits.toNat).strlen = s.digits := setString_strlen_digits _ _
  rw [State.codeString, strlen_eq, otpStages_codestr_bytes]

/-- Settles O41: the candidate is no operand of the generation, so `HOTPVFY` writes the same code string again and
compares with it. -/
theorem verifyAcceptsExactlyTheGeneratedCode : Obligations.VerifyAcceptsExactlyTheGeneratedCode := by
  intro s g cand len hexec herr
  obtain ⟨a, ha, hlen, hctr, h1, h10, rfl⟩ := hotpgen_of_exec hexec herr
  obtain ⟨verifies, -⟩ := hotpvfyMatchesExactlyTheCode
    { (s.otpStages a s.secretBytes s.ctr.toNat s.digits.toNat).succeed with cand := cand, candLen := len }
  obtain ⟨_, t, -, hvfy, -, terr, tmatched⟩ := verifies a ha hlen hctr h1 h10
  refine ⟨t, hvfy, terr, tmatched.trans (Eq.congr_right ?codeString)⟩
  case codeString => exact (otpStages_codeString s a s.secretBytes s.ctr.toNat).symm

/-- Settles O42: the operands are the algorithm, the secret string, the counter and `DIGITS`. -/
theorem hotpgenIsDeterminedByItsOperands : Obligations.HotpgenIsDeterminedByItsOperands := by
  intro s s' t t' halg hlen hsecret hctr hdigits hexec hexec' herr
  obtain ⟨a, ha, hlen', hctr', h1, h10, rfl⟩ := hotpgen_of_exec hexec herr
  have string_eq : s.secretBytes = s'.secretBytes := by
    rw [State.secretBytes, State.secretBytes, ← hlen]
    exact Memory.bytes_congr hsecret
  rw [halg] at ha
  rw [hlen] at hlen'
  rw [hctr] at hctr'
  rw [hdigits] at h1 h10
  rw [eq_succeed_of_exec hexec' (.hotpgen ha hlen' hctr' h1 h10), string_eq, hctr, hdigits]
  exact ⟨rfl, rfl, rfl, rfl, rfl, rfl, rfl, rfl, rfl, rfl⟩

/-! ### `TOTPGEN` and `HOTPGEN` -/

/-- `TOTPGEN` without a fault: its operands are legal, and with the time step `q` in `TCTR` the end state is that of its
writes (R232). -/
theorem totpgen_of_exec (h : exec .totpgen s = .next t) (herr : t.err = 0) :
    ∃ a q, HashAlg.ofField s.alg = some a ∧ s.secretLen.toNat ≤ 256 ∧ s.period ≠ 0 ∧ s.timeStep = Nat.cast q ∧
      q < 2 ^ 63 ∧ 1 ≤ s.digits.toNat ∧ s.digits.toNat ≤ 10 ∧
      t = ((s.setTctr q).otpStages a s.secretBytes q s.digits.toNat).succeed := by
  obtain ⟨u, hu, rfl⟩ := commandWrites_of_exec h herr
  cases hu with
  | totpgen ha hlen hperiod h0 hmax h1 h10 =>
    exact ⟨_, _, ha, hlen, hperiod, (Int.toNat_of_nonneg h0).symm, by omega, h1, h10, rfl⟩

/-- Settles O46: with the time step in `CTR`, `HOTPGEN` makes the writes of the stages that `TOTPGEN` makes, and it is
the three commands of O39. -/
theorem totpIsHotpOfTheTimeStep : Obligations.TotpIsHotpOfTheTimeStep := by
  intro s t hexec herr
  obtain ⟨a, q, ha, hlen, hperiod, hq, hmax, h1, h10, rfl⟩ := totpgen_of_exec hexec herr
  have tctr_eq : (BitVec.ofNat 64 q).toNat = q := setTctr_tctr_toNat s (by omega)
  have ctr_lt : (BitVec.ofNat 64 q).toNat < 2 ^ 63 := tctr_eq.symm ▸ hmax
  refine ⟨?timeStep, ?hotpgen, ?stages⟩
  case timeStep =>
    rw [← timeStep_eq, hq]
    exact congrArg Nat.cast tctr_eq
  case hotpgen =>
    have generated := exec_of_writes (.hotpgen (s := { s with ctr := BitVec.ofNat 64 q }) ha hlen ctr_lt h1 h10)
    rw [tctr_eq] at generated
    exact ⟨_, generated, rfl, rfl⟩
  case stages =>
    have hstep : exec .tstep s = .next (s.setTctr q).succeed := by
      have toNat_eq : s.timeStep.toNat = q := by rw [hq, Int.toNat_natCast]
      rw [← toNat_eq]
      exact exec_of_writes (.tstep hperiod (by omega) (by omega))
    have generated := exec_of_writes
      (.hotpgen (s := { (s.setTctr q).succeed with ctr := BitVec.ofNat 64 q }) ha hlen ctr_lt h1 h10)
    obtain ⟨b, c, hkeynorm, hb, hhmacctr, hc, htrunc, hd⟩ := (hotpgenIsKeynormHmacctrTrunc _ _).1 ⟨generated, rfl⟩
    rw [tctr_eq] at htrunc
    exact ⟨_, b, c, _, hstep, hkeynorm, hhmacctr, htrunc, rfl, hb, hc, rfl, rfl⟩

end Sys2Proof.Proofs
end

section
/-! Invariants of a run: what every operation of the machine keeps, every step keeps (spec/10_state.md rule R51). -/

namespace Sys2Proof.Proofs

open Sys2Proof.Machine

variable {i : Instr} {s t u : State}

/-- The operations a step is made of, and that each keeps a property: the model's own two, a host write, the two ends of
a running command, and reset. -/
structure KeptByOperations (P : State → Prop) : Prop where
  withSchedule : ∀ s turns, P s → P (s.withSchedule turns)
  received : ∀ s left r, P s → P (s.received left r)
  writeReg : ∀ s r v, P s → P (s.writeReg r v)
  takeFault : ∀ s f, s.busy = true → P s → P (s.takeFault f)
  succeed : ∀ s i u, P s → CommandWrites s i u → P u.succeed
  resetEngine : ∀ s, P s → P s.resetEngine

theorem KeptByOperations.hostTurn {P : State → Prop} (kept : KeptByOperations P) (h : P s) : P s.hostTurn := by
  obtain hsame | ⟨q, resp, hturn⟩ | ⟨r, v, q, resp, -, hturn⟩ := hostTurn_cases s
  · rwa [hsame]
  · rw [hturn]
    exact kept.received s q resp h
  · rw [hturn]
    exact kept.received _ q resp (kept.writeReg s r v h)

theorem KeptByOperations.engineTurn {P : State → Prop} (kept : KeptByOperations P) (h : P s)
    (hturn : s.engineTurn = .next t) : P t := by
  obtain ⟨-, rfl⟩ | ⟨hbusy, ⟨f, rfl⟩ | ⟨i, u, -, hu, rfl⟩⟩ := engineTurn_cases hturn
  · exact h
  · exact kept.takeFault s f hbusy h
  · exact kept.succeed s i u h hu

theorem KeptByOperations.step {P : State → Prop} (kept : KeptByOperations P) (h : P s) (hstep : step s = .next t) :
    P t := by
  obtain ⟨sch, -, rfl⟩ | ⟨sch, -, hturn⟩ | ⟨sch, -, rfl⟩ | ⟨-, -, hturn⟩ | ⟨-, -, rfl⟩ := step_cases hstep
  · exact kept.hostTurn (kept.withSchedule s sch h)
  · exact kept.engineTurn (kept.withSchedule s sch h) hturn
  · exact kept.resetEngine _ (kept.withSchedule s sch h)
  · exact kept.engineTurn h hturn
  · exact kept.hostTurn h

/-! ### The buffers -/

/-- A string laid down whole, with zeros up to the buffer's size behind it, is canonical. -/
theorem wf_ofBytes_append_zeros {bs : Bytes} {n size : Nat} (hlen : bs.length = n) (hn : n ≤ size) :
    (Memory.ofBytes (bs ++ zeros (size - n))).wf size :=
  Memory.wf_ofBytes _ (by rw [List.length_append, zeros_length]; omega)

theorem setKeyBlock_wf (s : State) (a : HashAlg) (secret : Bytes) :
    (s.setKeyBlock a (normKey a secret)).keyblk.wf 128 :=
  wf_ofBytes_append_zeros (normKey_length a secret) a.blockLen_le

theorem setDigest_wf (s : State) (a : HashAlg) (key m : Bytes) : (s.setDigest a (hmac a key m)).digest.wf 64 :=
  wf_ofBytes_append_zeros (hmac_length a key m) a.digestLen_le

theorem setString_wf (s : State) (code : Nat) {n : Nat} (hn : n ≤ 10) : (s.setString code n).codestr.wf 12 :=
  wf_ofBytes_append_zeros (dec_length code n) (by omega)

theorem setTrunc_buffersCanonical (h : s.BuffersCanonical) (d : Bytes) {n : Nat} (hn : n ≤ 10) :
    (s.setTrunc d n).BuffersCanonical := by
  obtain ⟨-, hcand, hdigest, hsecret, hkeyblk⟩ := h
  exact ⟨setString_wf _ _ hn, hcand, hdigest, hsecret, hkeyblk⟩

theorem otpStages_buffersCanonical (h : s.BuffersCanonical) (a : HashAlg) (secret : Bytes) (c : Nat) {n : Nat}
    (hn : n ≤ 10) : (s.otpStages a secret c n).BuffersCanonical := by
  obtain ⟨hcodestr, hcand, -, hsecret, -⟩ := h
  exact setTrunc_buffersCanonical
    (s := (s.setKeyBlock a (normKey a secret)).setDigest a (hmac a (normKey a secret) (be64 c)))
    ⟨hcodestr, hcand, setDigest_wf _ a _ _, hsecret, setKeyBlock_wf s a secret⟩ _ hn

theorem commandWrites_buffersCanonical (h : s.BuffersCanonical) (hu : CommandWrites s i u) : u.BuffersCanonical := by
  have ⟨hcodestr, hcand, hdigest, hsecret, hkeyblk⟩ := h
  induction hu with
  | nop | compare | extract | reduce | tstep => exact h
  | clear =>
    exact ⟨Memory.wf_zero 12, Memory.wf_zero 16, Memory.wf_zero 64, Memory.wf_zero 256, Memory.wf_zero 128⟩
  | keynorm => exact ⟨hcodestr, hcand, hdigest, hsecret, setKeyBlock_wf s _ _⟩
  | hmacctr => exact ⟨hcodestr, hcand, setDigest_wf s _ _ _, hsecret, hkeyblk⟩
  | render _ h10 _ => exact ⟨setString_wf s _ h10, hcand, hdigest, hsecret, hkeyblk⟩
  | trunc _ _ h10 => exact setTrunc_buffersCanonical h _ h10
  | hotpgen _ _ _ _ h10 => exact otpStages_buffersCanonical h _ _ _ h10
  | totpgen _ _ _ _ _ _ h10 => exact otpStages_buffersCanonical (s := s.setTctr _) h _ _ _ h10
  | hotpvfy _ ih | totpvfy _ ih => exact ih

theorem writeReg_buffersCanonical (h : s.BuffersCanonical) (r : Reg) (v : Word) :
    (s.writeReg r v).BuffersCanonical := by
  have ⟨hcodestr, hcand, hdigest, hsecret, hkeyblk⟩ := h
  cases r
  case status => exact writeReg_status_keeps s v State.BuffersCanonical rfl ▸ h
  case cand k => exact ⟨hcodestr, Memory.wf_setWord hcand (by omega) v, hdigest, hsecret, hkeyblk⟩
  case digest k => exact ⟨hcodestr, hcand, Memory.wf_setWord hdigest (by omega) v, hsecret, hkeyblk⟩
  case secret k => exact ⟨hcodestr, hcand, hdigest, Memory.wf_setWord hsecret (by omega) v, hkeyblk⟩
  all_goals exact h

theorem reset_buffersCanonical : State.reset.BuffersCanonical :=
  ⟨Memory.wf_zero 12, Memory.wf_zero 16, Memory.wf_zero 64, Memory.wf_zero 256, Memory.wf_zero 128⟩

theorem buffersCanonical_kept : KeptByOperations State.BuffersCanonical where
  withSchedule _ _ h := h
  received _ _ _ h := h
  writeReg _ r v h := writeReg_buffersCanonical h r v
  takeFault _ _ _ h := h
  succeed _ _ u h hu := commandWrites_buffersCanonical (u := u) h hu
  resetEngine _ _ := reset_buffersCanonical

/-- Settles O54: every operation keeps the five buffers canonical. -/
theorem everyStepKeepsBuffersCanonical : Obligations.EveryStepKeepsBuffersCanonical :=
  fun _ _ => buffersCanonical_kept.step

/-! ### The `STATUS` bits -/

theorem writeReg_statusCoherent (h : s.StatusCoherent) (r : Reg) (v : Word) : (s.writeReg r v).StatusCoherent := by
  have ⟨hbusy, hmatched, herr⟩ := h
  cases r
  case cmd => exact ⟨fun _ => ⟨rfl, rfl, rfl⟩, nofun, Nat.zero_le _⟩
  case status =>
    cases hbit : v.getLsbD 1
    case true =>
      rw [writeReg_status_of_set hbit]
      exact ⟨fun running => ⟨rfl, (hbusy running).2⟩, hmatched, herr⟩
    case false => rwa [writeReg_status_of_clear hbit]
  all_goals exact h

/-- A running command shows no match, so its fault leaves none (R52, R170). -/
theorem takeFault_statusCoherent (h : s.StatusCoherent) (hbusy : s.busy = true) (f : CommandFault) :
    (s.takeFault f).StatusCoherent := by
  obtain ⟨-, -, unmatched⟩ := h.1 hbusy
  refine ⟨nofun, fun matched => ?_, (errCode_range f).2⟩
  rw [State.takeFault_matched, unmatched] at matched
  cases matched

theorem statusCoherent_kept : KeptByOperations State.StatusCoherent where
  withSchedule _ _ h := h
  received _ _ _ h := h
  writeReg _ r v h := writeReg_statusCoherent h r v
  takeFault _ f hbusy h := takeFault_statusCoherent h hbusy f
  succeed _ _ _ _ _ := ⟨nofun, fun _ => rfl, Nat.zero_le _⟩
  resetEngine _ _ := ⟨nofun, nofun, Nat.zero_le _⟩

/-! ### The code string -/

theorem codeStringOk_of_empty (hstrlen : s.strlen = 0) (hcodestr : s.codestr = Memory.zero) : s.CodeStringOk := by
  rw [State.CodeStringOk, hstrlen, hcodestr]
  exact ⟨Nat.zero_le _, nofun, fun _ _ => rfl⟩

/-- The string of a rendered state has the characters of decimal digits, and zeros behind them (R167). -/
theorem Rendered.codeStringOk {digits : BitVec 8} (h : Rendered digits u) : u.CodeStringOk := by
  rw [State.CodeStringOk, h.codestr, h.strlen]
  refine ⟨h.digits_le, fun i hi => ?digit, fun i hi => ?tail⟩
  case digit =>
    rw [Memory.read_ofBytes, byteAt_append_zeros, byteAt_dec_toNat _ hi]
    have := Nat.mod_lt (u.code.toNat / 10 ^ (digits.toNat - 1 - i)) (by decide : 0 < 10)
    omega
  case tail => rw [Memory.read_ofBytes, byteAt_append_zeros, byteAt_of_le (by rwa [dec_length])]

theorem CodeStringOk.congr (h : s.CodeStringOk) (hstrlen : u.strlen = s.strlen) (hcodestr : u.codestr = s.codestr) :
    u.CodeStringOk := by
  rwa [State.CodeStringOk, hstrlen, hcodestr]

theorem commandWrites_codeStringOk (h : s.CodeStringOk) (hu : CommandWrites s i u) : u.CodeStringOk := by
  by_cases rendering : i ∈ renderingCommands
  case pos => exact (rendered_of_commandWrites hu rendering).codeStringOk
  case neg =>
    obtain rfl | hi := eq_or_ne i .clear
    case inl =>
      cases hu
      exact codeStringOk_of_empty rfl rfl
    case inr =>
      obtain ⟨hcodestr, hstrlen⟩ := commandWrites_codestr hu (by simpa [renderingCommands, hi] using rendering)
      exact CodeStringOk.congr h hstrlen hcodestr

theorem writeReg_codeStringOk (h : s.CodeStringOk) (r : Reg) (v : Word) : (s.writeReg r v).CodeStringOk := by
  obtain ⟨-, hstrlen, hcodestr⟩ := writeReg_results s v r
  exact CodeStringOk.congr h hstrlen hcodestr

theorem codeStringOk_kept : KeptByOperations State.CodeStringOk where
  withSchedule _ _ h := h
  received _ _ _ h := h
  writeReg _ r v h := writeReg_codeStringOk h r v
  takeFault _ _ _ h := h
  succeed _ _ u h hu := commandWrites_codeStringOk (u := u) h hu
  resetEngine _ _ := codeStringOk_of_empty rfl rfl

/-! ### The key block -/

theorem keyBlockTrue_of_not_keyvalid (h : s.keyvalid = false) : s.KeyBlockTrue := by
  intro hkeyvalid
  rw [h] at hkeyvalid
  cases hkeyvalid

/-- What the key block is judged by, and the key block itself, are those of a state in which it is true. -/
theorem KeyBlockTrue.congr (h : s.KeyBlockTrue) (hkeyvalid : u.keyvalid = s.keyvalid) (halg : u.alg = s.alg)
    (hlen : u.secretLen = s.secretLen) (hsecret : u.secret = s.secret) (hkeyblk : u.keyblk = s.keyblk) :
    u.KeyBlockTrue := by
  rwa [State.KeyBlockTrue, State.secretBytes, hkeyvalid, halg, hlen, hsecret, hkeyblk]

/-- A key block just written is true as long as `ALG` and the secret are those it was made of (R192). -/
theorem keyBlockTrue_of_written {a : HashAlg} (ha : HashAlg.ofField u.alg = some a) (hlen : u.secretLen.toNat ≤ 256)
    (hkeyblk : u.keyblk = Memory.ofBytes (normKey a u.secretBytes ++ zeros (128 - a.blockLen))) : u.KeyBlockTrue := by
  have hblock := a.blockLen_le
  intro _
  refine ⟨a, ha, hlen, ?_⟩
  rw [hkeyblk, bytes_ofBytes_of_length]
  rw [List.length_append, normKey_length, zeros_length]
  omega

theorem otpStages_keyBlockTrue {a : HashAlg} (ha : HashAlg.ofField s.alg = some a) (hlen : s.secretLen.toNat ≤ 256)
    (c n : Nat) : (s.otpStages a s.secretBytes c n).KeyBlockTrue :=
  keyBlockTrue_of_written (u := s.otpStages a s.secretBytes c n) ha hlen rfl

theorem commandWrites_keyBlockTrue (h : s.KeyBlockTrue) (hu : CommandWrites s i u) : u.KeyBlockTrue := by
  induction hu with
  | nop | hmacctr | extract | reduce | render | trunc | compare | tstep => exact h
  | clear => exact keyBlockTrue_of_not_keyvalid rfl
  | keynorm ha hlen => exact keyBlockTrue_of_written (u := s.setKeyBlock _ _) ha hlen rfl
  | hotpgen ha hlen => exact otpStages_keyBlockTrue ha hlen _ _
  | totpgen ha hlen => exact otpStages_keyBlockTrue (s := s.setTctr _) ha hlen _ _
  | hotpvfy _ ih | totpvfy _ ih => exact ih

/-- A host write either clears `KEYVALID` or leaves all that the key block is judged by (R45). -/
theorem writeReg_keyBlockTrue (h : s.KeyBlockTrue) (r : Reg) (v : Word) : (s.writeReg r v).KeyBlockTrue := by
  have hkeyvalid := writeReg_keyvalid s (r := r) v
  cases feeds : Reg.feedsKey r
  case true =>
    rw [feeds, if_pos rfl] at hkeyvalid
    exact keyBlockTrue_of_not_keyvalid hkeyvalid
  case false =>
    rw [feeds, if_neg Bool.false_ne_true] at hkeyvalid
    have notKey {r' : Reg} (hr' : Reg.feedsKey r' = true) : r ≠ r' := by
      rintro rfl
      rw [feeds] at hr'
      cases hr'
    exact KeyBlockTrue.congr h hkeyvalid (writeReg_alg s v (notKey rfl)) (writeReg_secretLen s v (notKey rfl))
      (writeReg_secret s v fun _ => notKey rfl) (s.writeReg_keyblk r v)

theorem keyBlockTrue_kept : KeptByOperations State.KeyBlockTrue where
  withSchedule _ _ h := h
  received _ _ _ h := h
  writeReg _ r v h := writeReg_keyBlockTrue h r v
  takeFault _ _ _ h := h
  succeed _ _ u h hu := commandWrites_keyBlockTrue (u := u) h hu
  resetEngine _ _ := keyBlockTrue_of_not_keyvalid rfl

/-! ### `TCTR` -/

theorem setTctr_tctrInRange (s : State) {q : Nat} (hq : q ≤ 2 ^ 63 - 1) : (s.setTctr q).TctrInRange := by
  rwa [State.TctrInRange, setTctr_tctr_toNat s (by omega)]

theorem otpStages_tctrInRange (h : s.TctrInRange) (a : HashAlg) (secret : Bytes) (c n : Nat) :
    (s.otpStages a secret c n).TctrInRange := h

theorem commandWrites_tctrInRange (h : s.TctrInRange) (hu : CommandWrites s i u) : u.TctrInRange := by
  induction hu with
  | tstep _ h0 hmax => exact setTctr_tctrInRange s (by omega)
  | totpgen _ _ _ h0 hmax => exact otpStages_tctrInRange (setTctr_tctrInRange s (by omega)) _ _ _ _
  | clear => exact Nat.zero_le _
  | hotpvfy _ ih | totpvfy _ ih => exact ih
  | _ => exact h

theorem writeReg_tctrInRange (h : s.TctrInRange) (r : Reg) (v : Word) : (s.writeReg r v).TctrInRange := by
  obtain ⟨htctr, -, -⟩ := writeReg_results s v r
  rwa [State.TctrInRange, htctr]

theorem tctrInRange_kept : KeptByOperations State.TctrInRange where
  withSchedule _ _ h := h
  received _ _ _ h := h
  writeReg _ r v h := writeReg_tctrInRange h r v
  takeFault _ _ _ h := h
  succeed _ _ u h hu := commandWrites_tctrInRange (u := u) h hu
  resetEngine _ _ := Nat.zero_le _

/-! ### The invariant -/

/-- Settles O53: each part of the invariant is kept by every operation on its own. -/
theorem everyStepKeepsTheInvariant : Obligations.EveryStepKeepsTheInvariant := by
  intro s t hinv hstep
  exact ⟨buffersCanonical_kept.step hinv.buffers hstep, statusCoherent_kept.step hinv.status hstep,
    codeStringOk_kept.step hinv.codeString hstep, keyBlockTrue_kept.step hinv.keyBlock hstep,
    tctrInRange_kept.step hinv.tctr hstep⟩

/-- Settles O52: after reset the buffers are empty and every flag, `STRLEN` and `TCTR` are 0. -/
theorem invariantHoldsAtReset : Obligations.InvariantHoldsAtReset where
  buffers := reset_buffersCanonical
  status := ⟨nofun, nofun, Nat.zero_le _⟩
  codeString := codeStringOk_of_empty rfl rfl
  keyBlock := keyBlockTrue_of_not_keyvalid rfl
  tctr := Nat.zero_le _

end Sys2Proof.Proofs
end

section
/-! The secret is not readable: no transaction depends on `SECRET` or `KEYBLK` (spec/10_state.md rules R43, R44;
spec/20_memory.md rule R81). -/

namespace Sys2Proof.Proofs

open Sys2Proof.Machine

variable {s : State}

/-- The state with other contents of the two buffers the host cannot read. -/
def withHidden (s : State) (secret keyblk : Memory) : State := { s with secret := secret, keyblk := keyblk }

theorem readReg_withHidden (s : State) (secret keyblk : Memory) (r : Reg) :
    (withHidden s secret keyblk).readReg r = s.readReg r := by cases r <;> rfl

theorem holds_withHidden (s : State) (secret keyblk : Memory) (r : Reg) :
    (withHidden s secret keyblk).holds r = s.holds r := rfl

/-- A write to a `SECRET` word is the only one that reaches the hidden buffers, and it does not read them. -/
theorem writeReg_sameButSecret (s : State) (secret keyblk : Memory) (r : Reg) (v : Word) :
    (s.writeReg r v).sameButSecret ((withHidden s secret keyblk).writeReg r v) := by
  cases r
  case status =>
    cases hbit : v.getLsbD 1
    case true =>
      rw [writeReg_status_of_set hbit, writeReg_status_of_set hbit]
      rfl
    case false =>
      rw [writeReg_status_of_clear hbit, writeReg_status_of_clear hbit]
      rfl
  all_goals rfl

/-- The two outcomes of a transaction that two states answer alike. -/
def answersAlike : Option (Response × State) → Option (Response × State) → Prop
  | none, none => True
  | some (r, u), some (r', u') => r = r' ∧ u.sameButSecret u'
  | _, _ => False

theorem hostRead_withHidden (s : State) (secret keyblk : Memory) (off : Nat) :
    (withHidden s secret keyblk).hostRead off = s.hostRead off := by
  cases hreg : Reg.atOffset off with
  | none => rw [hostRead_of_unmapped hreg, hostRead_of_unmapped hreg]
  | some r => rw [hostRead_of_mapped hreg, hostRead_of_mapped hreg, holds_withHidden, readReg_withHidden]

theorem transact_withHidden (s : State) (secret keyblk : Memory) (t : Transaction) :
    answersAlike (s.transact t) ((withHidden s secret keyblk).transact t) := by
  cases t with
  | read off =>
    rw [State.transact, State.transact, hostRead_withHidden]
    cases s.hostRead off with
    | none => trivial
    | some p => exact ⟨rfl, rfl⟩
  | write off v =>
    rw [State.transact, State.transact]
    cases hreg : Reg.atOffset off with
    | none =>
      rw [hostWrite_of_unmapped v hreg, hostWrite_of_unmapped v hreg]
      exact ⟨rfl, rfl⟩
    | some r =>
      rw [hostWrite_of_mapped v hreg, hostWrite_of_mapped v hreg, holds_withHidden]
      by_cases held : s.holds r = true
      case pos =>
        rw [if_pos held, if_pos held]
        trivial
      case neg =>
        rw [if_neg held, if_neg held]
        exact ⟨rfl, writeReg_sameButSecret s secret keyblk r v⟩
  | readOther | writeOther => exact ⟨rfl, rfl⟩

/-- Settles O55: the second state is the first with other hidden buffers. -/
theorem secretIsNotReadable : Obligations.SecretIsNotReadable := by
  intro s s' t hsame
  have hidden : s' = withHidden s s'.secret s'.keyblk := hsame
  have alike := transact_withHidden s s'.secret s'.keyblk t
  rw [← hidden] at alike
  refine ⟨?irq, ?answers⟩
  case irq =>
    rw [hidden]
    rfl
  case answers =>
    revert alike
    cases s.transact t <;> cases s'.transact t <;> exact id

end Sys2Proof.Proofs
end

section
/-! `LOADSECRET`: the word writes of a byte string, one after the other (spec/30_encoding.md rule R121). -/

namespace Sys2Proof.Proofs

open Sys2Proof.Machine

variable {s t u : State}

/-! ### The words of a byte string -/

/-- The lanes of a packed word are its bytes, the lowest index in the least significant lane (R76). -/
theorem lane_wordOfBytes (bs : Bytes) (k : Nat) {j : Nat} (hj : j < 4) :
    lane (wordOfBytes bs k) j = byteAt bs (4 * k + j) := by
  apply BitVec.eq_of_toNat_eq
  rw [lane_toNat, wordOfBytes, packWord_toNat]
  have := (byteAt bs (4 * k)).isLt
  have := (byteAt bs (4 * k + 1)).isLt
  have := (byteAt bs (4 * k + 2)).isLt
  have := (byteAt bs (4 * k + 3)).isLt
  obtain rfl | rfl | rfl | rfl : j = 0 ∨ j = 1 ∨ j = 2 ∨ j = 3 := by omega
  case inl =>
    simp only [Nat.add_zero]
    omega
  all_goals omega

/-- The first `n` words of a byte string lie in the buffer. -/
def holdsWords (m : Memory) (bs : Bytes) (n : Nat) : Prop := ∀ a, a < 4 * n → m.read a = byteAt bs a

theorem holdsWords_setWord {m : Memory} {bs : Bytes} {n : Nat} (h : holdsWords m bs n) :
    holdsWords (m.setWord n (wordOfBytes bs n)) bs (n + 1) := by
  intro a ha
  rw [Memory.read_setWord]
  split
  case isTrue inWord =>
    rw [lane_wordOfBytes bs n (Nat.mod_lt a (by decide))]
    congr 1
    omega
  case isFalse outside => exact h a (by omega)

/-- With the last word, whole or not, the string itself is in the buffer. -/
theorem bytes_of_holdsWords {m : Memory} {bs : Bytes} (h : holdsWords m bs ((bs.length + 3) / 4)) :
    m.bytes bs.length = bs := by
  refine bytes_ext (Memory.bytes_length m bs.length) fun i hi => ?_
  rw [Memory.bytes_length] at hi
  rw [byteAt_bytes m hi, h i (by omega)]

/-! ### The run -/

/-- A run of one step more, at its end. -/
theorem run_succ_of_step (n : Nat) : ∀ {s t u : State}, Host.Core.run Sys2Proof.core n s = .next t → step t = .next u →
    Host.Core.run Sys2Proof.core (n + 1) s = .next u := by
  induction n with
  | zero =>
    intro s t u hrun hstep
    cases hrun
    exact run_succ 0 hstep
  | succ n ih =>
    intro s t u hrun hstep
    obtain ⟨s', hs'⟩ := everyStepAnswersANextState.1 s
    rw [run_succ n hs'] at hrun
    rw [run_succ (n + 1) hs']
    exact ih hrun hstep

/-- With no turn laid down an idle engine's next step performs the host's write. -/
theorem step_free_write {r : Reg} {v : Word} {q : List HostOp} (hsched : s.schedule = []) (hidle : s.busy = false)
    (hqueue : s.hostQueue = writeOp r v :: q) : step s = .next ((s.writeReg r v).received q (.write .okay)) :=
  (step_free_idle hsched hidle).trans
    (congrArg Host.Outcome.next (hostTurn_access hqueue (transact_write v (holds_idle r hidle))))

/-- A state in which the first `n` words of a byte string have been loaded: everything but `SECRET` and `KEYVALID` is as
it was, and these operations are left to the host. -/
structure Loaded (s t : State) (bs : Bytes) (n : Nat) (left : List HostOp) : Prop where
  words : holdsWords t.secret bs n
  frame : t = { s with secret := t.secret, keyvalid := t.keyvalid, hostQueue := left, responses := t.responses }

/-- The load of the first `n` words takes `n` steps, one for each. -/
theorem run_loadWords (hsched : s.schedule = []) (hidle : s.busy = false) (bs : Bytes) (n : Nat) :
    ∀ left : List HostOp, n ≤ 64 →
      s.hostQueue = (List.range n).map (fun k => HostOp.access (.write (0x100 + 4 * k) (wordOfBytes bs k))) ++ left →
      ∃ t, Host.Core.run Sys2Proof.core n s = .next t ∧ Loaded s t bs n left := by
  induction n with
  | zero =>
    intro left _ hqueue
    refine ⟨s, run_zero s, nofun, ?_⟩
    rw [← show s.hostQueue = left from hqueue]
  | succ n ih =>
    intro left hn hqueue
    rw [List.range_succ, List.map_append, List.append_assoc] at hqueue
    obtain ⟨t, hrun, words, frame⟩ := ih _ (by omega) hqueue
    have tsched : t.schedule = [] := by rw [frame]; exact hsched
    have tidle : t.busy = false := by rw [frame]; exact hidle
    have tqueue : t.hostQueue = writeOp (.secret ⟨n, hn⟩) (wordOfBytes bs n) :: left := by rw [frame]; rfl
    refine ⟨_, run_succ_of_step n hrun (step_free_write tsched tidle tqueue), holdsWords_setWord words, ?_⟩
    rw [frame]
    rfl

/-- Settles O58: after the words the last write sets `SECRET_LEN` and clears `KEYVALID`. -/
theorem loadsecretLoadsTheSecret : Obligations.LoadsecretLoadsTheSecret := by
  intro s bs hidle hsched hqueue hwf
  have hlen : bs.length ≤ 256 := of_decide_eq_true hwf
  obtain ⟨t, hrun, words, frame⟩ := run_loadWords hsched hidle bs _ _ (by omega) hqueue
  have tsched : t.schedule = [] := by rw [frame]; exact hsched
  have tidle : t.busy = false := by rw [frame]; exact hidle
  have tqueue : t.hostQueue = [writeOp .secretLen (BitVec.ofNat 32 bs.length)] := by rw [frame]
  refine ⟨_, run_succ_of_step _ hrun (step_free_write tsched tidle tqueue), ?length, bytes_of_holdsWords words,
    rfl, ?frame⟩
  case length =>
    show ((BitVec.ofNat 32 bs.length).setWidth 16).toNat = bs.length
    rw [BitVec.toNat_setWidth, BitVec.toNat_ofNat]
    omega
  case frame =>
    rw [frame]
    rfl

end Sys2Proof.Proofs
end

section
/-! Results do not depend on the latency: the host's turn and the engine's commute while a command runs, so every order
of turns that finishes ends in the same state (spec/70_reset_and_hazards.md rules R305, R310). -/

namespace Sys2Proof.Proofs

open Sys2Proof.Machine

variable {s t e : State}

/-! ### Accesses while a command runs -/

/-- While a command runs, a host that leaves `STATUS` alone reaches three registers (R74). -/
theorem openReg_of_not_held {r : Reg} (hbusy : s.busy = true) (hr : s.holds r = false)
    (hstatus : Reg.offsetOf r ≠ 0x008) : r = .id ∨ r = .ctrl ∨ r = .lastcmd := by
  rw [State.holds, hbusy, Bool.true_and, Bool.not_eq_false'] at hr
  obtain rfl | rfl | rfl | rfl := openWhileBusy_eq_true_iff.1 hr
  · exact .inl rfl
  · exact absurd rfl hstatus
  · exact .inr (.inl rfl)
  · exact .inr (.inr rfl)

theorem openReg_not_held {r : Reg} (hr : r = .id ∨ r = .ctrl ∨ r = .lastcmd) (e : State) : e.holds r = false :=
  holds_eq_false_of (.inr (hr.imp_right .inr))

theorem readReg_openReg {r : Reg} (hr : r = .id ∨ r = .ctrl ∨ r = .lastcmd) (hie : e.ie = s.ie)
    (hlastcmd : e.lastcmd = s.lastcmd) : e.readReg r = s.readReg r := by
  obtain rfl | rfl | rfl := hr
  · rfl
  · exact congrArg bitWord hie
  · exact hlastcmd

/-- Of the state such a write changes `CTRL.IE` at most, in the same way in any state with the same `CTRL.IE`. -/
theorem writeReg_openReg {r : Reg} (hr : r = .id ∨ r = .ctrl ∨ r = .lastcmd) (v : Word) :
    ∃ ie, ∀ e : State, e.ie = s.ie → e.writeReg r v = { e with ie := ie } := by
  obtain rfl | rfl | rfl := hr
  · exact ⟨s.ie, fun e hie => by rw [← hie]; rfl⟩
  · exact ⟨v.getLsbD 0, fun e _ => rfl⟩
  · exact ⟨s.ie, fun e hie => by rw [← hie]; rfl⟩

/-- A transaction performed while a command runs is answered the same, and has the same effect, in every state that
agrees on what the running command does not write: in the state its Complete leaves, too. -/
theorem transact_running {t : Transaction} {resp : Response} {s' : State} (hbusy : s.busy = true)
    (havoid : HostOp.avoidsStatus (.access t) = true) (ht : s.transact t = some (resp, s')) :
    ∃ ie, ∀ e : State, e.ie = s.ie → e.lastcmd = s.lastcmd → e.transact t = some (resp, { e with ie := ie }) := by
  have unchanged (e : State) (hie : e.ie = s.ie) : e = { e with ie := s.ie } := by rw [← hie]
  have notHeld {r : Reg} (hr : t = .read (Reg.offsetOf r) ∨ ∃ v, t = .write (Reg.offsetOf r) v) :
      s.holds r = false := by
    by_contra held
    rw [transact_eq_none_iff.2 ⟨r, by simpa using held, hr⟩] at ht
    cases ht
  cases t with
  | readOther | writeOther =>
    cases ht
    exact ⟨s.ie, fun e hie _ => congrArg (fun e' => some (_, e')) (unchanged e hie)⟩
  | read off =>
    refine ⟨s.ie, fun e hie hlastcmd => ?_⟩
    rw [← unchanged e hie]
    cases hreg : Reg.atOffset off with
    | none =>
      rw [State.transact, hostRead_of_unmapped hreg] at ht ⊢
      cases ht
      rfl
    | some r =>
      obtain rfl := offsetOf_of_atOffset hreg
      have hr := openReg_of_not_held hbusy (notHeld (.inl rfl)) (by simpa [HostOp.avoidsStatus] using havoid)
      rw [transact_read (openReg_not_held hr s)] at ht
      cases ht
      rw [transact_read (openReg_not_held hr e), readReg_openReg hr hie hlastcmd]
  | write off v =>
    cases hreg : Reg.atOffset off with
    | none =>
      rw [State.transact, hostWrite_of_unmapped v hreg] at ht
      cases ht
      refine ⟨s.ie, fun e hie _ => ?_⟩
      rw [← unchanged e hie, State.transact, hostWrite_of_unmapped v hreg]
      rfl
    | some r =>
      obtain rfl := offsetOf_of_atOffset hreg
      have hr := openReg_of_not_held hbusy (notHeld (.inr ⟨v, rfl⟩)) (by simpa [HostOp.avoidsStatus] using havoid)
      rw [transact_write v (openReg_not_held hr s)] at ht
      cases ht
      obtain ⟨ie, hwrite⟩ := writeReg_openReg (s := s) hr v
      exact ⟨ie, fun e hie _ => by rw [transact_write v (openReg_not_held hr e), hwrite e hie]⟩

/-- The Complete of a running command does not depend on what the host does meanwhile (R104). -/
theorem engineTurn_withOutside (hbusy : s.busy = true) (ie : Bool) (q : List HostOp) (turns : List Agent)
    (rs : List Response) (hturn : s.engineTurn = .next e) :
    (s.withOutside ie q turns rs).engineTurn = .next (e.withOutside ie q turns rs) := by
  cases hword : decode s.lastcmd with
  | command i =>
    rw [engineTurn_command hbusy hword] at hturn
    exact (engineTurn_command (s := s.withOutside ie q turns rs) hbusy hword).trans
      (exec_withOutside i ie q turns rs hturn)
  | illegal =>
    rw [engineTurn_illegal hbusy hword] at hturn
    cases hturn
    exact engineTurn_illegal (s := s.withOutside ie q turns rs) hbusy hword

/-! ### Moves: the steps that change more than the turns to come -/

/-- What the host and the engine do at their turns, of a host that leaves `STATUS` alone. -/
inductive Move : State → State → Prop where
  | host {s s' : State} {t : Transaction} {q : List HostOp} {resp : Response}
      (hqueue : s.hostQueue = .access t :: q) (havoid : HostOp.avoidsStatus (.access t) = true)
      (ht : s.transact t = some (resp, s')) : Move s (s'.received q resp)
  | engine {s e : State} (hbusy : s.busy = true) (hturn : s.engineTurn = .next e) : Move s e

/-- A host's move and the engine's are done in either order. -/
theorem move_host_engine {s' : State} {t : Transaction} {q : List HostOp} {resp : Response}
    (hqueue : s.hostQueue = .access t :: q) (havoid : HostOp.avoidsStatus (.access t) = true)
    (ht : s.transact t = some (resp, s')) (hbusy : s.busy = true) (hturn : s.engineTurn = .next e) :
    ∃ d, Move (s'.received q resp) d ∧ Move e d := by
  obtain ⟨-, eie, elastcmd, equeue, esched, eresponses⟩ := engineTurn_frame hbusy hturn
  obtain ⟨ie, answers⟩ := transact_running hbusy havoid ht
  cases ht.symm.trans (answers s rfl rfl)
  refine ⟨e.withOutside ie q s.schedule (resp :: s.responses), ?hostFirst, ?engineFirst⟩
  case hostFirst => exact .engine hbusy (engineTurn_withOutside hbusy ie q s.schedule (resp :: s.responses) hturn)
  case engineFirst =>
    rw [← esched, ← eresponses]
    exact .host (equeue.trans hqueue) havoid (answers e eie elastcmd)

/-- Any two moves from a state are followed by moves to a common state. -/
theorem move_diamond (s a b : State) (ha : Move s a) (hb : Move s b) :
    ∃ d, Relation.ReflGen Move a d ∧ Relation.ReflTransGen Move b d := by
  cases ha with
  | host hqueue havoid ht =>
    cases hb with
    | host hqueue' havoid' ht' =>
      cases hqueue.symm.trans hqueue'
      cases ht.symm.trans ht'
      exact ⟨_, .refl, .refl⟩
    | engine hbusy hturn =>
      obtain ⟨d, had, hbd⟩ := move_host_engine hqueue havoid ht hbusy hturn
      exact ⟨d, .single had, .single hbd⟩
  | engine hbusy hturn =>
    cases hb with
    | host hqueue havoid ht =>
      obtain ⟨d, hbd, had⟩ := move_host_engine hqueue havoid ht hbusy hturn
      exact ⟨d, .single had, .single hbd⟩
    | engine hbusy' hturn' =>
      cases hturn.symm.trans hturn'
      exact ⟨_, .refl, .refl⟩

/-- A finished state has no move: nothing is pending and no command runs. -/
theorem eq_of_moves_of_finished (hfinished : s.finished = true) (hmoves : Relation.ReflTransGen Move s t) : s = t := by
  obtain ⟨hqueue, hidle⟩ : s.hostQueue = [] ∧ s.busy = false := by simpa [State.finished] using hfinished
  obtain heq | ⟨c, hmove, -⟩ := hmoves.cases_head
  · exact heq
  · cases hmove with
    | host hqueue' => cases hqueue.symm.trans hqueue'
    | engine hbusy => cases hidle.symm.trans hbusy

/-! ### Runs as moves -/

/-- What a step of an avoiding host without reset comes to: moves of the state without its turns, of which the turns and
the operations to come are some of those before. -/
structure StepMoves (s t : State) : Prop where
  moves : Relation.ReflTransGen Move (s.withSchedule []) (t.withSchedule [])
  schedule : ∀ a ∈ t.schedule, a ∈ s.schedule
  hostQueue : ∀ op ∈ t.hostQueue, op ∈ s.hostQueue

theorem hostTurn_moves (havoid : ∀ op ∈ s.hostQueue, HostOp.avoidsStatus op = true) : StepMoves s s.hostTurn := by
  have still : StepMoves s s := ⟨.refl, fun _ => id, fun _ => id⟩
  cases hqueue : s.hostQueue with
  | nil => rwa [hostTurn_nil hqueue]
  | cons op q =>
    have avoids : HostOp.avoidsStatus op = true := havoid op (by rw [hqueue]; exact List.mem_cons_self)
    cases op with
    | wait => cases avoids
    | access t =>
      cases ht : s.transact t with
      | none => rwa [hostTurn_held hqueue ht]
      | some p =>
        obtain ⟨resp, s'⟩ := p
        obtain ⟨-, hsched, -⟩ := transact_frame ht
        have performed : (s.withSchedule []).transact t = some (resp, s'.withSchedule []) := by
          rw [transact_withSchedule, ht, Option.map_some]
        rw [hostTurn_access hqueue ht]
        refine ⟨.single (.host (s := s.withSchedule []) hqueue avoids performed), ?_, ?_⟩
        · rw [State.received_schedule, hsched]
          exact fun _ => id
        · rw [State.received_hostQueue, hqueue]
          exact fun _ => List.mem_cons_of_mem _

theorem engineTurn_moves (hturn : s.engineTurn = .next t) : StepMoves s t := by
  cases hbusy : s.busy
  case false =>
    cases (engineTurn_idle hbusy).symm.trans hturn
    exact ⟨.refl, fun _ => id, fun _ => id⟩
  case true =>
    obtain ⟨-, tie, -, tqueue, tsched, tresponses⟩ := engineTurn_frame hbusy hturn
    have outside : s.withOutside t.ie t.hostQueue [] t.responses = s.withSchedule [] := by
      rw [tie, tqueue, tresponses]
      rfl
    have turn := engineTurn_withOutside hbusy t.ie t.hostQueue [] t.responses hturn
    rw [outside] at turn
    refine ⟨.single (.engine (s := s.withSchedule []) hbusy turn), ?_, ?_⟩
    · rw [tsched]
      exact fun _ => id
    · rw [tqueue]
      exact fun _ => id

theorem step_moves (hreset : Agent.reset ∉ s.schedule) (havoid : ∀ op ∈ s.hostQueue, HostOp.avoidsStatus op = true)
    (hstep : step s = .next t) : StepMoves s t := by
  have turn {agent : Agent} {sch : List Agent} (hsched : s.schedule = agent :: sch)
      (h : StepMoves (s.withSchedule sch) t) : StepMoves s t :=
    ⟨h.moves, fun a ha => hsched ▸ List.mem_cons_of_mem _ (h.schedule a ha), h.hostQueue⟩
  obtain ⟨sch, hsched, rfl⟩ | ⟨sch, hsched, hturn⟩ | ⟨sch, hsched, -⟩ | ⟨-, -, hturn⟩ | ⟨-, -, rfl⟩ := step_cases hstep
  · exact turn hsched (hostTurn_moves havoid)
  · exact turn hsched (engineTurn_moves hturn)
  · exact absurd (hsched ▸ List.mem_cons_self) hreset
  · exact engineTurn_moves hturn
  · exact hostTurn_moves havoid

theorem run_moves (n : Nat) : ∀ {s t : State}, Agent.reset ∉ s.schedule →
    (∀ op ∈ s.hostQueue, HostOp.avoidsStatus op = true) → Host.Core.run Sys2Proof.core n s = .next t →
    Relation.ReflTransGen Move (s.withSchedule []) (t.withSchedule []) := by
  induction n with
  | zero =>
    intro s t _ _ hrun
    cases hrun
    exact .refl
  | succ n ih =>
    intro s t hreset havoid hrun
    obtain ⟨u, hstep⟩ := everyStepAnswersANextState.1 s
    rw [run_succ n hstep] at hrun
    have first := step_moves hreset havoid hstep
    have rest := ih (fun h => hreset (first.schedule _ h)) (fun op h => havoid op (first.hostQueue op h)) hrun
    exact first.moves.trans rest

/-- Settles O56: the two runs are moves from the same state, their ends have moves to a common state
(`Relation.church_rosser`), and a finished state has none. -/
theorem finishedRunsDoNotDependOnLatency : Obligations.FinishedRunsDoNotDependOnLatency := by
  intro s₁ s₂ t₁ t₂ n₁ n₂ hsame hreset₁ hreset₂ havoid hrun₁ hfinished₁ hrun₂ hfinished₂
  have start : s₂.withSchedule [] = s₁.withSchedule [] := by
    rw [hsame]
    rfl
  have havoid₂ : ∀ op ∈ s₂.hostQueue, HostOp.avoidsStatus op = true := by
    rw [hsame]
    exact havoid
  have moves₁ := run_moves n₁ hreset₁ havoid hrun₁
  have moves₂ := run_moves n₂ hreset₂ havoid₂ hrun₂
  rw [start] at moves₂
  obtain ⟨d, hd₁, hd₂⟩ := Relation.church_rosser move_diamond moves₁ moves₂
  have ends : t₁.withSchedule [] = t₂.withSchedule [] :=
    (eq_of_moves_of_finished (s := t₁.withSchedule []) hfinished₁ hd₁).trans
      (eq_of_moves_of_finished (s := t₂.withSchedule []) hfinished₂ hd₂).symm
  have restored : (t₂.withSchedule []).withSchedule t₂.schedule = (t₁.withSchedule []).withSchedule t₂.schedule :=
    congrArg (State.withSchedule · t₂.schedule) ends.symm
  exact restored

end Sys2Proof.Proofs
end
